-- ==== Sys2Proof/Word.lean ====
section
/-! DEFINITION. The words the G128 carries: 32-bit data words of four bytes, 22-bit word addresses
and four byte enables (spec/00_scope.md, "Conventions"; 01 R3). -/

namespace Sys2Proof

/-- A data word. -/
abbrev Word := BitVec 32

/-- A byte of a data word. -/
abbrev Byte := BitVec 8

/-- A word address: the motion memory has up to 4,194,304 words. -/
abbrev Addr := BitVec 22

/-- The four byte enables of a write; bit n enables the byte in bits 8n+7 to 8n. -/
abbrev ByteEnables := BitVec 4

/-- A hoist number. -/
abbrev Slot := Fin 128

/-- A truss group number. -/
abbrev GroupNo := Fin 32

/-- A pacing queue by number: A0 to A3 are 0 to 3, B0 to B3 are 4 to 7. -/
abbrev QueueNo := Fin 8

/-- All four byte enables set: a whole-word write. -/
def allBytes : ByteEnables := 15

end Sys2Proof
end

