-- ==== Sys2Proof/Config.lean ====
section
/-! DEFINITION. What is fixed for the part, and the free values: what the manual leaves open.
A free value is a constant with no body, so no proof can see what it is. -/

namespace Sys2Proof.Config

/-- First word of the configuration block (00_scope.md, "Memory as the part sees it"). -/
def configBase : Nat := 0x3FF000

/-- Words of the configuration block. -/
def configWords : Nat := 1408

/-- First word of the control block. -/
def controlBase : Nat := 0x3FFF00

/-- Words of the control block. -/
def controlWords : Nat := 64

/-- The highest word a configured region may hold (02 R24). -/
def configurableTop : Nat := 0x3FEFFF

/-- Records the fault report queue holds (11 R168). -/
def reportQueueDepth : Nat := 32

/-- Where the dropped count stays (11 R168). -/
def droppedTop : Nat := 4294967295

/-- The FRAME arrivals of disagreement that make a stop discrepancy (09 R149). -/
def discrepancyLimit : Nat := 8

/-- What a byte of memory that nothing has written reads as.
DESIGN CHOICE, unsafe: the manual gives the SRAM no power-on contents (log entry 1). -/
def unlistedByte : Byte := 0

/-- FREE VALUE. The order in which the blocks take one FRAME arrival, read off number by number
(03 R59, R60; 06 R106; 08 R140: "may be taken in either order"; log entry 7). -/
opaque frameChoice : Nat → Nat

/-- FREE VALUE. The 32-bit word written for a value that its word cannot hold (log entry 18). -/
opaque unstatedWord : Int → Word

end Sys2Proof.Config
end

