-- ==== Sys2Proof/Syntax.lean ====
section
/-! DEFINITION. The commands of the block: one constructor of `Instr` for each row of
spec/opcode_table.json. -/

namespace Sys2Proof

/-- The master identity an access carries (00_scope.md, "Masters"). -/
inductive Mid
  /-- MID 0, the show processor. -/
  | processor
  /-- MID 1, the drive link engine. -/
  | driveLink
  /-- MID 2, the auxiliary master. -/
  | auxiliary
  /-- MID 3, the service port. -/
  | service
  deriving DecidableEq, Repr

/-- The direction of an access; a write has its data and byte enables (01, 1.1). -/
inductive AccessOp
  | read
  | write (data : Word) (enables : ByteEnables)
  deriving DecidableEq, Repr

/-- One word read or write arriving at the controller port from one master. -/
structure Access where
  mid : Mid
  addr : Addr
  op : AccessOp
  deriving DecidableEq, Repr

/-- The two channels of the emergency stop chain. -/
inductive Channel
  | a
  | b
  deriving DecidableEq, Repr

/-- The commands of the block, in the order of spec/opcode_table.json. -/
inductive Instr
  /-- ACCESS_ARRIVAL (R6): any access arrives. -/
  | accessArrival (access : Access)
  /-- GOAL_WRITE (R68): a whole processor write at a goal word. -/
  | goalWrite (addr : Addr) (goal : Word)
  /-- GRID_WRITE (R89): a whole processor write in the grid window. -/
  | gridWrite (addr : Addr) (goal : Word)
  /-- STATUS_WORD_WRITE (R132): a drive link engine write to status word 0, 1 or 2. -/
  | statusWordWrite (addr : Addr) (data : Word) (enables : ByteEnables)
  /-- STATUS_ARRIVAL (R133): a drive link engine write to status word 3. -/
  | statusArrival (addr : Addr) (data : Word) (enables : ByteEnables)
  /-- KEY_WORD_WRITE (R161): a processor write to key word n. -/
  | keyWordWrite (n : Fin 4) (data : Word) (enables : ByteEnables)
  /-- LOAD (R29). -/
  | load
  /-- RESTART (R42). -/
  | restart
  /-- SET_MODE_BYPASS (R40): SET_MODE with captured argument 0 BYPASS. -/
  | setModeBypass
  /-- SET_MODE_GUARD (R41): SET_MODE with captured argument 0 GUARD. -/
  | setModeGuard
  /-- UNLOCK (R162). -/
  | unlock
  /-- LOCK (R163). -/
  | lock
  /-- GO (R76). -/
  | go
  /-- CLEAR_STAGE (R79). -/
  | clearStage
  /-- WITHDRAW (R80). -/
  | withdraw
  /-- SET_GOAL_MODE (R74). -/
  | setGoalMode
  /-- POWER (R65). -/
  | power
  /-- CLEAR_FAULT_HOIST (R144): CLEAR_FAULT with captured subject kind HOIST. -/
  | clearFaultHoist
  /-- CLEAR_FAULT_GROUP (R108): CLEAR_FAULT with captured subject kind GROUP. -/
  | clearFaultGroup
  /-- RESUME (R158). -/
  | resume
  /-- SET_RATE (R127). -/
  | setRate
  /-- SET_TRIM (R128). -/
  | setTrim
  /-- SNAPSHOT_STATS (R172). -/
  | snapshotStats
  /-- UNKNOWN_REQUEST (R165): a request code that names no request. -/
  | unknownRequest (code : Word)
  /-- PASS_THROUGH_COMPLETE (R3). -/
  | passThroughComplete
  /-- RELEASE_WORD_COMPLETE (R124). -/
  | releaseWordComplete
  /-- REPORT_WORD_COMPLETE (R169). -/
  | reportWordComplete
  /-- LOAD_WORD_READ (R31). -/
  | loadWordRead
  /-- LOAD_VALIDATION (R32). -/
  | loadValidation
  /-- FRAME_ARRIVAL (R51). -/
  | frameArrival
  /-- QUEUE_SERVICE_DUE (R113). -/
  | queueServiceDue (queue : QueueNo)
  /-- CONFIRM_WINDOW_OPENS (R51). -/
  | confirmWindowOpens (slot : Slot)
  /-- CONFIRM_TIMEOUT (R55). -/
  | confirmTimeout (slot : Slot)
  /-- SETTLE_WINDOW_ENDS (R58). -/
  | settleWindowEnds (slot : Slot)
  /-- IDLE_PARK (R60). -/
  | idlePark (slot : Slot)
  /-- STATUS_LOST (R138). -/
  | statusLost (slot : Slot)
  /-- RETRY_HOLD_EXPIRY (R106). -/
  | retryHoldExpiry (group : GroupNo)
  /-- STOP_DISCREPANCY (R149). -/
  | stopDiscrepancy
  /-- STATISTICS_SNAPSHOT (R171). -/
  | statisticsSnapshot
  /-- STOP_CHANNEL_OPENS (R148). -/
  | stopChannelOpens (channel : Channel)
  /-- STOP_CHANNEL_CLOSES (R148). -/
  | stopChannelCloses (channel : Channel)
  /-- RESET_ASSERTED (R4). -/
  | resetAsserted
  /-- RESET_RELEASED (R147). -/
  | resetReleased
  deriving DecidableEq, Repr

end Sys2Proof
end

