-- ==== Sys2Proof/WellFormed.lean ====
section
/-! DEFINITION. When a command stands in the row of the opcode table it is named by, as far as its
operands alone can say. A command that is not well formed is still an access with a meaning: the
Region Decoder classifies it as what it is (log entry 10). -/

namespace Sys2Proof

/-- The word address of the request code word. -/
def requestCodeAddr : Addr := BitVec.ofNat 22 Config.controlBase

/-- The word address of key word n. -/
def keyWordAddr (n : Fin 4) : Addr := BitVec.ofNat 22 (Config.controlBase + 8 + n.val)

/-- A processor write to a key word: the row KEY_WORD_WRITE. -/
def Access.isKeyWordWrite (a : Access) : Bool :=
  match a.mid, a.op with
  | .processor, .write _ _ => (List.finRange 4).any fun n => a.addr = keyWordAddr n
  | _, _ => false

/-- A whole processor write to the request code word: the rows of the requests (11 R165). -/
def Access.isRequestEvent (a : Access) : Bool :=
  match a.mid, a.op with
  | .processor, .write _ enables => a.addr = requestCodeAddr && enables = allBytes
  | _, _ => false

/-- An address a configured region may hold (02 R24). -/
def inConfigurable (a : Addr) : Bool := a.toNat ≤ Config.configurableTop

/-- The operands fit the row: an ACCESS_ARRIVAL has no row of its own, a goal or status write is
addressed below the top of the configurable space, and an unknown request names no request. -/
def Instr.wellFormed : Instr → Bool
  | .accessArrival a => !a.isKeyWordWrite && !a.isRequestEvent
  | .goalWrite addr _ => inConfigurable addr
  | .gridWrite addr _ => inConfigurable addr
  | .statusWordWrite addr _ _ => inConfigurable addr
  | .statusArrival addr _ _ => inConfigurable addr
  | .unknownRequest code => code.toNat = 0 || 15 < code.toNat
  | .keyWordWrite _ _ _ => true
  | .load => true
  | .restart => true
  | .setModeBypass => true
  | .setModeGuard => true
  | .unlock => true
  | .lock => true
  | .go => true
  | .clearStage => true
  | .withdraw => true
  | .setGoalMode => true
  | .power => true
  | .clearFaultHoist => true
  | .clearFaultGroup => true
  | .resume => true
  | .setRate => true
  | .setTrim => true
  | .snapshotStats => true
  | .passThroughComplete => true
  | .releaseWordComplete => true
  | .reportWordComplete => true
  | .loadWordRead => true
  | .loadValidation => true
  | .frameArrival => true
  | .queueServiceDue _ => true
  | .confirmWindowOpens _ => true
  | .confirmTimeout _ => true
  | .settleWindowEnds _ => true
  | .idlePark _ => true
  | .statusLost _ => true
  | .retryHoldExpiry _ => true
  | .stopDiscrepancy => true
  | .statisticsSnapshot => true
  | .stopChannelOpens _ => true
  | .stopChannelCloses _ => true
  | .resetAsserted => true
  | .resetReleased => true

end Sys2Proof
end

