-- ==== Sys2Proof/Machine/State.lean ====
section
/-! DEFINITION. The state of the G128, block by block as 00_scope.md "Functional blocks" cuts the
part, plain data throughout, and the state right after RESET. -/

namespace Sys2Proof.Machine

/-! ### What a step can stop with -/

/-- No event stops the part: no fault has a raiser, so there is none. -/
inductive Fault
  deriving DecidableEq, Repr

/-- Refusals of the model. -/
inductive Refusal
  /-- Raised by an arm of exec whose command has no meaning yet; safe. No arm raises it. -/
  | notModelled (mnemonic : String)
  deriving DecidableEq, Repr

/-! ### The controller port, memory port and region map (chapter 1) -/

/-- One value for each master. -/
structure PerMid (α : Type) where
  processor : α
  driveLink : α
  auxiliary : α
  service : α
  deriving DecidableEq, Repr

/-- An access place (R1). -/
inductive Place
  | empty
  /-- Classified HOLD, waiting for its condition to end. -/
  | held (access : Access)
  /-- WAITING_PORT: classified PASS or CAPTURE and not yet completed. -/
  | waiting (access : Access)
  deriving DecidableEq, Repr

/-- The captured copy of one slot's status words, and the marks of words 0 to 2 (R10, R18, R132). -/
structure StatusCopy where
  words : Vector Word 4
  marks : Vector Bool 3
  deriving DecidableEq, Repr

structure ControllerPort where
  places : PerMid Place
  /-- The masters whose accesses are in WAITING_PORT and not yet granted, next grant first (R20). -/
  order : List Mid
  /-- Accesses that stay on the bus until the place is EMPTY, oldest first (R1). -/
  bus : PerMid (List Access)
  /-- The word last returned to each master's read. -/
  readData : PerMid Word
  requestCode : Word
  arguments : Vector Word 4
  status : Vector StatusCopy 128
  deriving DecidableEq, Repr

/-- The claimants of the memory port (R3). -/
inductive Claimant
  | passThrough (mid : Mid)
  | releaseWriter
  | reportWriter
  | rigLoader
  deriving DecidableEq, Repr

/-- The word operation in flight (R3). `live` falls when RESET or a teardown takes the operation's
work from its claimant: the operation still completes (R4, R126, R168; log entry 13). -/
structure PortOp where
  claimant : Claimant
  addr : Addr
  op : AccessOp
  live : Bool
  deriving DecidableEq, Repr

/-- The arbiter's record of a grant (R20). -/
inductive Grant
  | passThrough
  | internal
  deriving DecidableEq, Repr

structure MemoryPort where
  op : Option PortOp
  previous : Grant
  deriving DecidableEq, Repr

/-- What a configured region is (R24). -/
inductive RegionKind
  | setpoint
  | status
  | grid
  | ring
  | statistics
  | user (lockable fenced : Bool)
  deriving DecidableEq, Repr

structure Region where
  kind : RegionKind
  base : Nat
  length : Nat
  deriving DecidableEq, Repr

/-! ### The Rig Loader (chapter 2) -/

inductive GateMode
  | unconfigured
  | loading
  | guard
  | bypass
  deriving DecidableEq, Repr

inductive LoadPhase
  | idle
  /-- READING, with the next word offset. -/
  | reading (next : Nat)
  | validating
  deriving DecidableEq, Repr

/-- The sixteen steps of validation, by their failure codes, in order (R32). -/
inductive LoadStep
  | badMagic
  | badChecksum
  | badFormat
  | entryMisplaced
  | regionRange
  | regionOverlap
  | ringSize
  | limitsInverted
  | queueDisabled
  | groupSize
  | groupMember
  | groupMismatch
  | budget
  | gridSize
  | gridDuplicate
  | gridAbsent
  deriving DecidableEq, Repr

inductive LoadResult
  | notRun
  | inProgress
  | passed
  | failed (step : LoadStep)
  deriving DecidableEq, Repr

inductive BlockSection
  | header
  | queues
  | regions
  | grid
  | password
  | groups
  | hoists
  deriving DecidableEq, Repr

/-- A load detail other than NONE: a section and an entry index (R32). -/
structure LoadDetail where
  part : BlockSection
  entry : Nat
  deriving DecidableEq, Repr

structure RingPlacement where
  base : Nat
  count : Nat
  deriving DecidableEq, Repr

structure Loader where
  gate : GateMode
  phase : LoadPhase
  candidate : List Word
  result : LoadResult
  detail : Option LoadDetail
  failed : Bool
  previousRing : Option RingPlacement
  deriving DecidableEq, Repr

/-! ### The Rig Lock (chapter 10) -/

inductive LockState
  | noPassword
  | closed
  | opened
  | permanent
  deriving DecidableEq, Repr

structure RigLock where
  state : LockState
  password : Option (Vector Word 4)
  keys : Vector Word 4
  deriving DecidableEq, Repr

/-! ### The Hoist Table (chapter 3) -/

/-- A drive command, and a reported drive state. -/
inductive Drive
  | off
  | powered
  | released
  deriving DecidableEq, Repr

inductive PowerState
  | off
  | waking
  | standby
  | releasing
  | run
  deriving DecidableEq, Repr

inductive Direction
  | up
  | down
  deriving DecidableEq, Repr

/-- The causes of a hoist, in the order of R136 and then STATUS_LOST and CONFIRM_TIMEOUT (R173). -/
inductive HoistCause
  | overload
  | slack
  | follow
  | limitOverrun
  | driveFault
  | stateMismatch
  | statusLost
  | confirmTimeout
  deriving DecidableEq, Repr

/-- A fault cause set: each cause in it or not. -/
structure HoistCauses where
  overload : Bool
  slack : Bool
  follow : Bool
  limitOverrun : Bool
  driveFault : Bool
  stateMismatch : Bool
  statusLost : Bool
  confirmTimeout : Bool
  deriving DecidableEq, Repr

/-- One hoist record (R44, R45). Positions are signed numbers of pu. -/
structure Hoist where
  group : Option GroupNo
  queue : QueueNo
  step : Nat
  approachRatio : Nat
  lowerLimit : Nat
  upperLimit : Nat
  overloadThreshold : Nat
  slackThreshold : Nat
  followLimit : Nat
  approachBand : Nat
  wakeDelay : Nat
  brakeDelay : Nat
  power : PowerState
  command : Drive
  commandDirty : Bool
  runDemand : Bool
  delay : Nat
  confirm : Nat
  settle : Nat
  commanded : Int
  synced : Bool
  syncDue : Bool
  lastDirection : Option Direction
  sinceStep : Nat
  goal : Option Nat
  measured : Option Int
  load : Option Nat
  reported : Option Drive
  driveCode : Option Nat
  stamp : Option (BitVec 16)
  age : Nat
  causes : HoistCauses
  deriving DecidableEq, Repr

/-! ### The Group Table (chapter 6) -/

inductive GroupState
  | idle
  | moving
  | held
  deriving DecidableEq, Repr

inductive HoldPolicy
  | latch
  | retry
  deriving DecidableEq, Repr

inductive GroupCause
  | spread
  | memberFault
  deriving DecidableEq, Repr

structure GroupCauses where
  spread : Bool
  memberFault : Bool
  deriving DecidableEq, Repr

/-- One group record (R94, R95). -/
structure TrussGroup where
  members : List Slot
  queue : QueueNo
  tolerance : Nat
  policy : HoldPolicy
  retryHold : Nat
  state : GroupState
  causes : GroupCauses
  retry : Nat
  lastSpread : Nat
  deriving DecidableEq, Repr

/-! ### Goal Intake and the Grid Mapper (chapters 4 and 5) -/

inductive GoalMode
  | cued
  | direct
  deriving DecidableEq, Repr

structure StagingEntry where
  slot : Slot
  goal : Nat
  arrival : Word
  deriving DecidableEq, Repr

structure GoalIntake where
  mode : GoalMode
  keepCode : Option Word
  staging : List StagingEntry
  deriving DecidableEq, Repr

inductive Rotation
  | none0
  | quarter90
  | half180
  | threeQuarter270
  deriving DecidableEq, Repr

/-- The grid settings of the installed description (R86); an EMPTY venue cell is `none`. -/
structure GridSettings where
  rows : Nat
  columns : Nat
  rotation : Rotation
  mirror : Bool
  venue : List (Option Slot)
  deriving DecidableEq, Repr

/-! ### The Pacer and the Release Writer (chapter 7) -/

/-- A mover: an ungrouped hoist or a whole group. -/
inductive Mover
  | hoist (slot : Slot)
  | group (number : GroupNo)
  deriving DecidableEq, Repr

/-- A queue's resume point other than none (R111). -/
inductive ResumePoint
  | mover (m : Mover)
  | tail
  deriving DecidableEq, Repr

structure PacingQueue where
  increment : Option Nat
  rate : Nat
  due : Bool
  movers : List Mover
  resume : Option ResumePoint
  deriving DecidableEq, Repr

structure Pacer where
  queues : Vector PacingQueue 8
  /-- Next start of bank A and of bank B, as a queue of the bank. -/
  nextStartA : Fin 4
  nextStartB : Fin 4
  budget : Option Nat
  reversalDwell : Option Nat
  trim : Nat
  batchNumber : BitVec 16
  pendingFrame : Bool
  frozen : Bool
  deriving DecidableEq, Repr

inductive RecordKind
  | pace
  | state
  | hold
  | halt
  | sync
  deriving DecidableEq, Repr

/-- One setpoint record (R125); its batch number is its batch's. -/
structure SetpointRecord where
  slot : Slot
  position : Int
  command : Drive
  kind : RecordKind
  hint : Nat
  deriving DecidableEq, Repr

structure Batch where
  number : BitVec 16
  records : List SetpointRecord
  deriving DecidableEq, Repr

inductive WriterState
  | idle
  | starting
  | writing
  deriving DecidableEq, Repr

/-- The batch in hand: the records not yet written to their end, the one in hand first, how many
words of that one have been granted, and whether a halt took later records from it (R123). -/
structure BatchInHand where
  number : BitVec 16
  records : List SetpointRecord
  granted : Nat
  abandoned : Bool
  deriving DecidableEq, Repr

/-- An owed batch: the slots it will hold, composed when it starts (R121, R122). -/
inductive OwedBatch
  | hold (slots : List Slot)
  | sync (slots : List Slot)
  deriving DecidableEq, Repr

structure ReleaseWriter where
  state : WriterState
  hand : Option BatchInHand
  /-- The HALT batch composed behind an abandoned batch that still writes its last record. -/
  following : Option Batch
  owed : List OwedBatch
  deriving DecidableEq, Repr

/-! ### The Halt Controller (chapter 9) -/

inductive ChannelState
  | opened
  | closed
  deriving DecidableEq, Repr

/-- The causes that reach the halt latch while the part runs (R151); RESET comes from RESET alone.
-/
inductive HaltCause
  | stopOpened
  | stopDiscrepancy
  | overloadBypass
  deriving DecidableEq, Repr

structure HaltCauses where
  reset : Bool
  stopOpened : Bool
  stopDiscrepancy : Bool
  overloadBypass : Bool
  deriving DecidableEq, Repr

inductive RequiredCycle
  | notRequired
  | awaitOpen
  | awaitClose
  deriving DecidableEq, Repr

structure HaltController where
  channelA : ChannelState
  channelB : ChannelState
  latched : Bool
  causes : HaltCauses
  discrepancy : Nat
  cycle : RequiredCycle
  deriving DecidableEq, Repr

/-- The six lines and WAIT. Outputs stand as the last event left them. -/
structure Lines where
  stopA : ChannelState
  stopB : ChannelState
  reset : Bool
  enable : Bool
  fault : Bool
  wait : PerMid Bool
  deriving DecidableEq, Repr

/-! ### The Request Handler and the Report Writer (chapter 11) -/

inductive ResultCode
  | notAnswered
  | done
  | unknownRequest
  | badArgument
  | refusedMode
  | refusedLock
  | refusedMoving
  | refusedHalt
  | refusedFault
  | keyMismatch
  | loadFailed
  deriving DecidableEq, Repr

/-- The request in hand, its arguments as they stood at its event (R165). -/
structure Request where
  code : Word
  arguments : Vector Word 4
  deriving DecidableEq, Repr

/-- The request state. The request state word reads PENDING in every state but `idle`. -/
inductive RequestState
  | idle
  /-- Taken, and not answered yet. -/
  | inHand (request : Request)
  /-- Answered within the event that is being carried out. -/
  | answered (request : Request)
  /-- Answered, and waiting for the writes of the words marked (R166). -/
  | closing (request : Request) (awaited : Vector Bool 16)
  deriving DecidableEq, Repr

structure RequestHandler where
  state : RequestState
  result : ResultCode
  detail : Word
  deriving DecidableEq, Repr

inductive NoticeCode
  | goalLimit
  | goalFormat
  | goalSource
  | goalAbsent
  | goalNotReady
  | goalHalted
  | goalHeld
  | goalNoStatus
  | gridEmptyCell
  | setpointSource
  | statusSource
  | statusIncomplete
  | controlSource
  | lockedWrite
  | requestOverrun
  | reportsDropped
  deriving DecidableEq, Repr

/-- A fault record's code, under its class (R173). -/
inductive FaultCode
  | notice (code : NoticeCode)
  | hoist (cause : HoistCause)
  | group (cause : GroupCause)
  | halt (cause : HaltCause)
  deriving DecidableEq, Repr

structure FaultRecord where
  code : FaultCode
  /-- A slot or group number, or none. -/
  subject : Option Nat
  valueA : Word
  valueB : Word
  deriving DecidableEq, Repr

/-- The fault record whose write has begun (the head of the queue): its sequence number, the
placement and write index in force when it began, and how many of its words have been written. -/
structure RecordWrite where
  sequence : Nat
  ring : RingPlacement
  index : Nat
  written : Nat
  deriving DecidableEq, Repr

/-- The values of a statistics snapshot (R171). -/
structure SnapshotValues where
  frameCount : Word
  batchNumber : BitVec 16
  counters : Vector Word 32
  deriving DecidableEq, Repr

inductive Snapshot
  | notTaken
  | owed (values : SnapshotValues)
  /-- WRITING, with how many of its words have been written. -/
  | writing (values : SnapshotValues) (written : Nat)
  deriving DecidableEq, Repr

/-- Where a SNAPSHOT_STATS request in hand stands (R172). -/
inductive StatsRequest
  | noRequest
  /-- Its snapshot is taken when the one in hand has been written. -/
  | afterCurrent
  /-- The snapshot in hand is its own. -/
  | own
  deriving DecidableEq, Repr

/-- A word the Report Writer claims the memory port for (R169). -/
inductive ReportWord
  | faultRecord
  /-- A part-owned word, 10h plus the offset; `awaited` when a request waits for this write. -/
  | mirror (offset : Fin 16) (awaited : Bool)
  | snapshot
  deriving DecidableEq, Repr

structure ReportClaim where
  word : ReportWord
  addr : Addr
  data : Word
  deriving DecidableEq, Repr

structure ReportWriter where
  queue : List FaultRecord
  dropped : Nat
  ring : Option RingPlacement
  writeIndex : Nat
  nextSequence : Nat
  lastSequence : Nat
  recordWrite : Option RecordWrite
  /-- The dirty part-owned words, 10h to 1Fh by their offset from 10h. -/
  dirty : Vector Bool 16
  /-- The counters in the order of the statistics block's words 2 to 33. -/
  counters : Vector Word 32
  cadence : Option (Nat × Nat)
  snapshot : Snapshot
  statsRequest : StatsRequest
  claim : Option ReportClaim
  frameCount : Word
  deriving DecidableEq, Repr

/-! ### The whole state -/

structure State where
  port : ControllerPort
  memPort : MemoryPort
  regions : List Region
  loader : Loader
  lock : RigLock
  hoists : Vector (Option Hoist) 128
  confirmLimit : Option Nat
  idlePark : Option Nat
  groups : Vector (Option TrussGroup) 32
  goals : GoalIntake
  grid : Option GridSettings
  pacer : Pacer
  writer : ReleaseWriter
  statusTimeout : Option Nat
  halt : HaltController
  requests : RequestHandler
  report : ReportWriter
  lines : Lines
  /-- The motion memory, by bytes: byte lane n of word w is at 4w + n (log entry 2). -/
  mem : List Host.Cell
  /-- The model's own: how many free values have been taken (log entry 7). -/
  free : Nat
  /-- The model's own: the commands that wait, first in, first out (log entry 20). -/
  pending : List Instr
  deriving DecidableEq, Repr

/-! ### Reset values -/

def PerMid.all {α : Type} (x : α) : PerMid α := ⟨x, x, x, x⟩

/-- An unmarked, zero status copy (R4, R131). -/
def StatusCopy.clear : StatusCopy := ⟨Vector.replicate 4 0, Vector.replicate 3 false⟩

def HoistCauses.empty : HoistCauses := ⟨false, false, false, false, false, false, false, false⟩

def GroupCauses.empty : GroupCauses := ⟨false, false⟩

def HaltCauses.empty : HaltCauses := ⟨false, false, false, false⟩

/-- The controller port after RESET (R4, R21); the returned words are log entry 14's. -/
def ControllerPort.reset : ControllerPort where
  places := .all .empty
  order := []
  bus := .all []
  readData := .all 0
  requestCode := 0
  arguments := Vector.replicate 4 0
  status := Vector.replicate 128 .clear

/-- The Rig Loader after RESET (R28). -/
def Loader.reset : Loader where
  gate := .unconfigured
  phase := .idle
  candidate := []
  result := .notRun
  detail := none
  failed := false
  previousRing := none

/-- The Rig Lock after RESET (R159). -/
def RigLock.reset : RigLock := ⟨.noPassword, none, Vector.replicate 4 0⟩

/-- A queue after RESET and after a teardown (R111). -/
def PacingQueue.clear : PacingQueue := ⟨none, 0, false, [], none⟩

/-- The Pacer after RESET (R111). -/
def Pacer.reset : Pacer where
  queues := Vector.replicate 8 .clear
  nextStartA := 0
  nextStartB := 0
  budget := none
  reversalDwell := none
  trim := 8
  batchNumber := 0
  pendingFrame := false
  frozen := false

/-- The Release Writer after RESET and after a teardown (R124). -/
def ReleaseWriter.clear : ReleaseWriter := ⟨.idle, none, none, []⟩

/-- The Report Writer after RESET (R168). -/
def ReportWriter.reset : ReportWriter where
  queue := []
  dropped := 0
  ring := none
  writeIndex := 0
  nextSequence := 1
  lastSequence := 0
  recordWrite := none
  dirty := Vector.replicate 16 true
  counters := Vector.replicate 32 0
  cadence := none
  snapshot := .notTaken
  statsRequest := .noRequest
  claim := none
  frameCount := 0

/-- The machine right after reset, the RESET line released (log entries 4 and 5). -/
def State.reset : State where
  port := .reset
  memPort := ⟨none, .internal⟩
  regions := []
  loader := .reset
  lock := .reset
  hoists := Vector.replicate 128 none
  confirmLimit := none
  idlePark := none
  groups := Vector.replicate 32 none
  goals := ⟨.cued, none, []⟩
  grid := none
  pacer := .reset
  writer := .clear
  statusTimeout := none
  halt := ⟨.opened, .opened, true, ⟨true, false, false, false⟩, 0, .notRequired⟩
  requests := ⟨.idle, .notAnswered, 0⟩
  report := .reset
  lines := ⟨.opened, .opened, false, false, false, .all false⟩
  mem := []
  free := 0
  pending := []

end Sys2Proof.Machine
end

