-- ==== Sys2Proof/Machine/Ops.lean ====
section
/-! DEFINITION. The named operations over the state: the motion memory, the per-master and per-slot
tables, cause sets, the statistics counters, the fault report queue and the answer to a request. -/

namespace Sys2Proof.Machine

/-! ### One value for each master -/

def PerMid.get {α : Type} (t : PerMid α) : Mid → α
  | .processor => t.processor
  | .driveLink => t.driveLink
  | .auxiliary => t.auxiliary
  | .service => t.service

def PerMid.set {α : Type} (t : PerMid α) (m : Mid) (x : α) : PerMid α :=
  match m with
  | .processor => { t with processor := x }
  | .driveLink => { t with driveLink := x }
  | .auxiliary => { t with auxiliary := x }
  | .service => { t with service := x }

/-- The number of a master. -/
def midNumber : Mid → Nat
  | .processor => 0
  | .driveLink => 1
  | .auxiliary => 2
  | .service => 3

/-- The masters in the order of their numbers. -/
def allMids : List Mid := [.processor, .driveLink, .auxiliary, .service]

/-! ### Words and bytes -/

/-- Bits `hi` to `lo` of a word, as a number (R173). -/
def bitField (w : Word) (hi lo : Nat) : Nat := w.toNat / 2 ^ lo % 2 ^ (hi + 1 - lo)

/-- Byte lane n of a word: bits 8n+7 to 8n. -/
def byteOf (w : Word) (lane : Nat) : Byte := w.extractLsb' (8 * lane) 8

/-- A word from its four byte lanes, lane 0 first. -/
def wordOf (b0 b1 b2 b3 : Byte) : Word := b3 ++ b2 ++ b1 ++ b0

/-- The enabled bytes of `new` over the other bytes of `old` (R3, R18). -/
def mergeBytes (old new : Word) (enables : ByteEnables) : Word :=
  let lane (n : Nat) : Byte := if enables.getLsbD n then byteOf new n else byteOf old n
  wordOf (lane 0) (lane 1) (lane 2) (lane 3)

/-- A signed value in its 32-bit word; a value that does not fit is free (log entry 18). -/
def signedWord (v : Int) : Word :=
  if -2147483648 ≤ v ∧ v ≤ 2147483647 then BitVec.ofInt 32 v else Config.unstatedWord v

/-- An unsigned value in its 32-bit word; a value that does not fit is free (log entry 18). -/
def unsignedWord (v : Nat) : Word :=
  if v < 4294967296 then BitVec.ofNat 32 v else Config.unstatedWord v

/-- The address of a word by its number. -/
def addrOf (n : Nat) : Addr := BitVec.ofNat 22 n

/-! ### The motion memory -/

/-- The canonical form: addresses strictly rising, and no entry equal to what an unlisted address
reads as, so that equal memories are equal lists. -/
abbrev Memory.wf (m : List Host.Cell) : Prop :=
  m.Pairwise (fun x y => x.1 < y.1) ∧ ∀ c ∈ m, c.2 ≠ Config.unlistedByte

/-- One byte of memory. -/
def Memory.read : List Host.Cell → Nat → Byte
  | [], _ => Config.unlistedByte
  | (k, b) :: rest, a => if k = a then b else Memory.read rest a

/-- A list with `b` at `a` in front, unless unlisted addresses read as `b` already. -/
def Memory.consByte (a : Nat) (b : Byte) (rest : List Host.Cell) : List Host.Cell :=
  if b = Config.unlistedByte then rest else (a, b) :: rest

/-- Memory with one byte written, in canonical form. -/
def Memory.write : List Host.Cell → Nat → Byte → List Host.Cell
  | [], a, b => Memory.consByte a b []
  | (k, c) :: rest, a, b =>
    if a < k then Memory.consByte a b ((k, c) :: rest)
    else if a = k then Memory.consByte a b rest
    else (k, c) :: Memory.write rest a b

/-- The byte address of lane n of a word (log entry 2). -/
def laneAddr (a : Addr) (lane : Nat) : Nat := 4 * a.toNat + lane

/-- The word at a word address. -/
def Memory.readWord (m : List Host.Cell) (a : Addr) : Word :=
  wordOf (Memory.read m (laneAddr a 0)) (Memory.read m (laneAddr a 1))
    (Memory.read m (laneAddr a 2)) (Memory.read m (laneAddr a 3))

/-- One byte lane of a word write. -/
def Memory.writeLane (a : Addr) (data : Word) (enables : ByteEnables) (lane : Nat)
    (m : List Host.Cell) : List Host.Cell :=
  if enables.getLsbD lane then Memory.write m (laneAddr a lane) (byteOf data lane) else m

/-- Memory with the enabled bytes of one word written (R3). -/
def Memory.writeWord (m : List Host.Cell) (a : Addr) (data : Word) (enables : ByteEnables) :
    List Host.Cell :=
  Memory.writeLane a data enables 3 (Memory.writeLane a data enables 2
    (Memory.writeLane a data enables 1 (Memory.writeLane a data enables 0 m)))

/-! ### Cause sets -/

def HoistCauses.has (x : HoistCauses) : HoistCause → Bool
  | .overload => x.overload
  | .slack => x.slack
  | .follow => x.follow
  | .limitOverrun => x.limitOverrun
  | .driveFault => x.driveFault
  | .stateMismatch => x.stateMismatch
  | .statusLost => x.statusLost
  | .confirmTimeout => x.confirmTimeout

/-- The set with a cause in it, or out of it. -/
def HoistCauses.put (x : HoistCauses) (c : HoistCause) (b : Bool) : HoistCauses :=
  match c with
  | .overload => { x with overload := b }
  | .slack => { x with slack := b }
  | .follow => { x with follow := b }
  | .limitOverrun => { x with limitOverrun := b }
  | .driveFault => { x with driveFault := b }
  | .stateMismatch => { x with stateMismatch := b }
  | .statusLost => { x with statusLost := b }
  | .confirmTimeout => { x with confirmTimeout := b }

/-- The hoist causes in the order of their bits (R173). -/
def allHoistCauses : List HoistCause :=
  [.overload, .slack, .follow, .limitOverrun, .driveFault, .stateMismatch, .statusLost,
    .confirmTimeout]

def HoistCauses.isEmpty (x : HoistCauses) : Bool := x = HoistCauses.empty

def HoistCauses.count (x : HoistCauses) : Nat := allHoistCauses.countP x.has

def GroupCauses.has (x : GroupCauses) : GroupCause → Bool
  | .spread => x.spread
  | .memberFault => x.memberFault

def GroupCauses.add (x : GroupCauses) : GroupCause → GroupCauses
  | .spread => { x with spread := true }
  | .memberFault => { x with memberFault := true }

def GroupCauses.count (x : GroupCauses) : Nat := x.spread.toNat + x.memberFault.toNat

def HaltCauses.has (x : HaltCauses) : HaltCause → Bool
  | .stopOpened => x.stopOpened
  | .stopDiscrepancy => x.stopDiscrepancy
  | .overloadBypass => x.overloadBypass

def HaltCauses.add (x : HaltCauses) : HaltCause → HaltCauses
  | .stopOpened => { x with stopOpened := true }
  | .stopDiscrepancy => { x with stopDiscrepancy := true }
  | .overloadBypass => { x with overloadBypass := true }

/-! ### Hoist and group records -/

/-- The slots in order. -/
def allSlots : List Slot := List.finRange 128

/-- The group numbers in order. -/
def allGroups : List GroupNo := List.finRange 32

/-- The queues in order. -/
def allQueues : List QueueNo := List.finRange 8

/-- The record of a slot, if a hoist is present there. -/
def State.hoist (s : State) (slot : Slot) : Option Hoist := s.hoists[slot]

/-- A slot with a hoist record (R44). -/
def State.present (s : State) (slot : Slot) : Bool := (s.hoist slot).isSome

/-- The present hoists in slot order. -/
def State.presentSlots (s : State) : List Slot := allSlots.filter s.present

/-- The state with a slot's record changed; an absent slot stays absent. -/
def State.updateHoist (s : State) (slot : Slot) (f : Hoist → Hoist) : State :=
  match s.hoist slot with
  | none => s
  | some h => { s with hoists := s.hoists.set slot.val (some (f h)) slot.isLt }

/-- The record of a group, if it is in use. -/
def State.group (s : State) (g : GroupNo) : Option TrussGroup := s.groups[g]

/-- The state with a group's record changed; a group not in use stays so. -/
def State.updateGroup (s : State) (g : GroupNo) (f : TrussGroup → TrussGroup) : State :=
  match s.group g with
  | none => s
  | some r => { s with groups := s.groups.set g.val (some (f r)) g.isLt }

/-- Whether a slot has a record with a non-empty fault cause set. -/
def State.faulted (s : State) (slot : Slot) : Bool :=
  match s.hoist slot with
  | none => false
  | some h => !h.causes.isEmpty

/-- Whether a group is in use and HELD. -/
def State.groupHeld (s : State) (g : GroupNo) : Bool :=
  match s.group g with
  | none => false
  | some r => r.state = .held

/-- The members of a group, in member-list order. -/
def State.members (s : State) (g : GroupNo) : List Slot :=
  match s.group g with
  | none => []
  | some r => r.members

/-- The pacing queue by its number. -/
def State.queue (s : State) (q : QueueNo) : PacingQueue := s.pacer.queues[q]

/-- The state with one pacing queue changed. -/
def State.updateQueue (s : State) (q : QueueNo) (f : PacingQueue → PacingQueue) : State :=
  { s with pacer := { s.pacer with queues := s.pacer.queues.set q.val (f (s.queue q)) q.isLt } }

/-- Do `f` at each element of a list in order. -/
def forEach {α : Type} (f : α → State → State) : List α → State → State
  | [], s => s
  | x :: xs, s => forEach f xs (f x s)

/-! ### Statistics counters (R130, R171) -/

/-- A counter, by its word in the statistics block less 2 (R173). -/
inductive Counter
  | batchesWritten
  | budgetExhaustions
  | frameOverruns
  | goalsAccepted
  | goalsRefused
  | arrivalsTaken
  | arrivalsRefused
  | recordsWritten
  | servicesGranted (queue : QueueNo)
  | servicesMissed (queue : QueueNo)
  | paceReleased (queue : QueueNo)
  deriving DecidableEq, Repr

/-- The counter's place: word 2 of the statistics block is place 0. -/
def counterIndex : Counter → Fin 32
  | .batchesWritten => 0
  | .budgetExhaustions => 1
  | .frameOverruns => 2
  | .goalsAccepted => 3
  | .goalsRefused => 4
  | .arrivalsTaken => 5
  | .arrivalsRefused => 6
  | .recordsWritten => 7
  | .servicesGranted q => ⟨8 + 3 * q.val, by omega⟩
  | .servicesMissed q => ⟨9 + 3 * q.val, by omega⟩
  | .paceReleased q => ⟨10 + 3 * q.val, by omega⟩

/-- Raise a counter by 1, wrapping (R168). -/
def State.count (s : State) (c : Counter) : State :=
  let i := counterIndex c
  { s with report := { s.report with
      counters := s.report.counters.set i.val (s.report.counters[i] + 1) i.isLt } }

/-! ### The fault report queue (R168) -/

/-- The gate modes in which a configuration is installed. -/
def GateMode.installed : GateMode → Bool
  | .unconfigured => false
  | .loading => false
  | .guard => true
  | .bypass => true

/-- A fault record handed to the Report Writer: it joins the queue, is counted as dropped when the
queue is full, or is discarded in UNCONFIGURED and LOADING. -/
def State.raise (s : State) (r : FaultRecord) : State :=
  if s.loader.gate.installed then
    if s.report.queue.length < Config.reportQueueDepth then
      { s with report := { s.report with queue := s.report.queue ++ [r] } }
    else
      { s with report := { s.report with
          dropped := min (s.report.dropped + 1) Config.droppedTop } }
  else s

/-- A notice. -/
def State.notice (s : State) (code : NoticeCode) (subject : Option Nat) (a b : Word) : State :=
  s.raise ⟨.notice code, subject, a, b⟩

/-- Queue a REPORTS_DROPPED marker where records were dropped and the queue has room. -/
def State.queueMarker (s : State) : State :=
  if s.loader.gate.installed ∧ 0 < s.report.dropped ∧
      s.report.queue.length < Config.reportQueueDepth then
    { s with report := { s.report with
        queue := s.report.queue ++
          [⟨.notice .reportsDropped, none, unsignedWord s.report.dropped, s.report.frameCount⟩]
        dropped := 0 } }
  else s

/-! ### Answers to requests (R166) -/

/-- An owner ends the request in hand. The result words are dirty even when their values are
unchanged. -/
def State.answer (s : State) (result : ResultCode) (detail : Word) : State :=
  { s with
    requests := {
      state := match s.requests.state with
        | .inHand r => .answered r
        | other => other
      result := result
      detail := detail }
    report := { s.report with dirty := (s.report.dirty.set 0 true).set 1 true } }

end Sys2Proof.Machine
end

