-- ==== Sys2Proof/Machine/Flags.lean ====
section
/-! DEFINITION. The conditions and the values the part shows: ENABLE, FAULT and WAIT (R21, R155,
R156), the number codes of R173, and the part-owned words of the control block (R170, R173). -/

namespace Sys2Proof.Machine

/-! ### Lines -/

/-- The condition of ENABLE (R155). -/
def State.enabled (s : State) : Bool :=
  s.loader.gate.installed && s.halt.channelA = .closed && s.halt.channelB = .closed &&
    !s.halt.latched

/-- The present hoists with a non-empty fault cause set (R147). -/
def State.faultedHoistCount (s : State) : Nat := allSlots.countP s.faulted

/-- The groups in HELD (R147). -/
def State.heldGroupCount (s : State) : Nat := allGroups.countP s.groupHeld

/-- The movers in all lists together (R111). -/
def State.linkedMoverCount (s : State) : Nat :=
  s.pacer.queues.foldl (fun n q => n + q.movers.length) 0

/-- The condition of FAULT (R156). -/
def State.inTrouble (s : State) : Bool :=
  0 < s.faultedHoistCount || 0 < s.heldGroupCount ||
    (s.halt.latched && (s.halt.causes.stopOpened || s.halt.causes.stopDiscrepancy ||
      s.halt.causes.overloadBypass)) ||
    s.loader.failed

/-- Whether a place holds an access. -/
def Place.occupied : Place → Bool
  | .empty => false
  | .held _ => true
  | .waiting _ => true

/-- WAIT toward a master (R21). -/
def State.mustWait (s : State) (m : Mid) : Bool :=
  s.lines.reset || (s.port.places.get m).occupied

/-- The output lines at the end of an event. While RESET is asserted ENABLE and FAULT stand at
their RESET values, which the blocks' RESET values give (R147). -/
def driveLines (s : State) : State :=
  { s with lines := { s.lines with
      enable := s.enabled
      fault := s.inTrouble
      wait := ⟨s.mustWait .processor, s.mustWait .driveLink, s.mustWait .auxiliary,
        s.mustWait .service⟩ } }

/-! ### Number codes (R173) -/

def driveCode : Drive → Nat
  | .off => 0
  | .powered => 1
  | .released => 2

def powerCode : PowerState → Nat
  | .off => 0
  | .waking => 1
  | .standby => 2
  | .releasing => 3
  | .run => 4

def channelCode : Channel → Nat
  | .a => 0
  | .b => 1

def kindCode : RecordKind → Nat
  | .pace => 0
  | .state => 1
  | .hold => 2
  | .halt => 3
  | .sync => 4

def gateCode : GateMode → Nat
  | .unconfigured => 0
  | .loading => 1
  | .guard => 2
  | .bypass => 3

def lockCode : LockState → Nat
  | .noPassword => 0
  | .closed => 1
  | .opened => 2
  | .permanent => 3

def goalModeCode : GoalMode → Nat
  | .cued => 0
  | .direct => 1

def resultNumber : ResultCode → Nat
  | .notAnswered => 0
  | .done => 1
  | .unknownRequest => 2
  | .badArgument => 3
  | .refusedMode => 4
  | .refusedLock => 5
  | .refusedMoving => 6
  | .refusedHalt => 7
  | .refusedFault => 8
  | .keyMismatch => 9
  | .loadFailed => 10

/-- The number of a validation step, 1 to 16 (R32). -/
def stepNumber : LoadStep → Nat
  | .badMagic => 1
  | .badChecksum => 2
  | .badFormat => 3
  | .entryMisplaced => 4
  | .regionRange => 5
  | .regionOverlap => 6
  | .ringSize => 7
  | .limitsInverted => 8
  | .queueDisabled => 9
  | .groupSize => 10
  | .groupMember => 11
  | .groupMismatch => 12
  | .budget => 13
  | .gridSize => 14
  | .gridDuplicate => 15
  | .gridAbsent => 16

def loadResultCode : LoadResult → Nat
  | .notRun => 0
  | .inProgress => 1
  | .passed => 2
  | .failed step => 16 + stepNumber step

def sectionCode : BlockSection → Nat
  | .header => 1
  | .queues => 2
  | .regions => 3
  | .grid => 4
  | .password => 5
  | .groups => 6
  | .hoists => 7

/-- The load detail word: entry index in bits 8:0, section in bits 19:16. -/
def loadDetailWord : Option LoadDetail → Word
  | none => 0
  | some d => BitVec.ofNat 32 (d.entry + 65536 * sectionCode d.part)

def noticeNumber : NoticeCode → Nat
  | .goalLimit => 1
  | .goalFormat => 2
  | .goalSource => 3
  | .goalAbsent => 4
  | .goalNotReady => 5
  | .goalHalted => 6
  | .goalHeld => 7
  | .goalNoStatus => 8
  | .gridEmptyCell => 9
  | .setpointSource => 10
  | .statusSource => 11
  | .statusIncomplete => 12
  | .controlSource => 13
  | .lockedWrite => 14
  | .requestOverrun => 15
  | .reportsDropped => 16

/-- The bit of a hoist cause in a REFUSED_FAULT detail; its record code is 32 more. -/
def hoistCauseBit : HoistCause → Nat
  | .overload => 0
  | .slack => 1
  | .follow => 2
  | .limitOverrun => 3
  | .driveFault => 4
  | .stateMismatch => 5
  | .statusLost => 6
  | .confirmTimeout => 7

def haltCauseNumber : HaltCause → Nat
  | .stopOpened => 56
  | .stopDiscrepancy => 57
  | .overloadBypass => 58

/-- Code and class of a fault record. -/
def faultNumber : FaultCode → Nat × Nat
  | .notice n => (noticeNumber n, 0)
  | .hoist c => (32 + hoistCauseBit c, 1)
  | .group .spread => (48, 2)
  | .group .memberFault => (49, 2)
  | .halt c => (haltCauseNumber c, 3)

/-- The causes of a hoist as a set, bit 0 to bit 7. -/
def causesWord (x : HoistCauses) : Word :=
  BitVec.ofNat 32 ((allHoistCauses.map fun c => if x.has c then 2 ^ hoistCauseBit c else 0).sum)

/-- The halt word (R147, R173). -/
def haltWord (h : HaltController) : Word :=
  let bit (b : Bool) (n : Nat) : Nat := if b then 2 ^ n else 0
  BitVec.ofNat 32 (bit h.latched 0 + bit h.causes.reset 1 + bit h.causes.stopOpened 2 +
    bit h.causes.stopDiscrepancy 3 + bit h.causes.overloadBypass 4 +
    bit (h.channelA = .closed) 8 + bit (h.channelB = .closed) 9)

/-- The request state word: 0 IDLE, 1 PENDING. -/
def requestStateCode : RequestState → Nat
  | .idle => 0
  | .inHand _ => 1
  | .answered _ => 1
  | .closing _ _ => 1

/-! ### The part-owned words -/

/-- The value behind the part-owned word at 10h plus the offset (R173). -/
def State.mirror (s : State) (offset : Fin 16) : Word :=
  match offset.val with
  | 0 => BitVec.ofNat 32 (resultNumber s.requests.result)
  | 1 => s.requests.detail
  | 2 => BitVec.ofNat 32 (requestStateCode s.requests.state)
  | 3 => BitVec.ofNat 32 (gateCode s.loader.gate)
  | 4 => BitVec.ofNat 32 (lockCode s.lock.state)
  | 5 => haltWord s.halt
  | 6 => s.pacer.batchNumber.setWidth 32
  | 7 => s.report.frameCount
  | 8 => BitVec.ofNat 32 s.report.writeIndex
  | 9 => BitVec.ofNat 32 s.report.lastSequence
  | 10 => BitVec.ofNat 32 (loadResultCode s.loader.result)
  | 11 => loadDetailWord s.loader.detail
  | 12 => BitVec.ofNat 32 s.pacer.trim
  | 13 => BitVec.ofNat 32 (goalModeCode s.goals.mode)
  | 14 => BitVec.ofNat 32 s.goals.staging.length
  | _ => BitVec.ofNat 32 s.linkedMoverCount

/-- Every part-owned word whose value an event changed joins the dirty set (R170; log entry 9). -/
def markChanges (before s : State) : State :=
  { s with report := { s.report with
      dirty := Vector.ofFn fun i : Fin 16 =>
        s.report.dirty[i] || decide (before.mirror i ≠ s.mirror i) } }

end Sys2Proof.Machine
end

