-- ==== Sys2Proof/Machine/Operands.lean ====
section
/-! DEFINITION. What the operands of a command name: the region and word an access falls in (R5),
the class the Region Decoder gives it (R6 to R18), and the arguments of a request (R173). -/

namespace Sys2Proof.Machine

/-! ### Regions -/

/-- Where an access falls: an anchor region, a configured region with the offset of the word, or
no region at all. -/
inductive Location
  | configuration (offset : Nat)
  | control (offset : Nat)
  | region (kind : RegionKind) (offset : Nat)
  | plain
  deriving DecidableEq, Repr

/-- Whether a region holds a word. -/
def Region.holds (r : Region) (a : Nat) : Bool := r.base ≤ a && a < r.base + r.length

/-- The region that holds a word address (R5). -/
def State.locate (s : State) (a : Addr) : Location :=
  let n := a.toNat
  if Config.configBase ≤ n ∧ n < Config.configBase + Config.configWords then
    .configuration (n - Config.configBase)
  else if Config.controlBase ≤ n ∧ n < Config.controlBase + Config.controlWords then
    .control (n - Config.controlBase)
  else match s.regions.find? (fun r => r.holds n) with
    | some r => .region r.kind (n - r.base)
    | none => .plain

/-- Whether a word lies in the setpoint area. -/
def State.inSetpointArea (s : State) (a : Addr) : Bool :=
  match s.locate a with
  | .region .setpoint _ => true
  | _ => false

/-- The base of the region of a kind; 0 where none is configured. -/
def State.regionBase (s : State) (k : RegionKind) : Nat :=
  match s.regions.find? (fun r => r.kind = k) with
  | some r => r.base
  | none => 0

/-- The slot that an offset in the setpoint or status area names: offset div 4 (R5). -/
def offsetSlot (o : Nat) : Slot := Fin.ofNat 128 (o / 4)

/-! ### Classes -/

/-- What a captured write is handed over as (R10, R11, R13). -/
inductive Capture
  | requestCode
  | argument (n : Fin 4)
  | keyWord (n : Fin 4)
  | status (slot : Slot) (word : Fin 4)
  | grid (offset : Nat)
  deriving DecidableEq, Repr

/-- An access class (R6), with what goes with it. A dropped write may name a notice and its
subject (R19). -/
inductive AccessClass
  | pass
  | capture (what : Capture)
  | intercept (slot : Slot)
  | drop (notice : Option (NoticeCode × Option Nat))
  | zero
  | hold
  deriving DecidableEq, Repr

/-- Whether the lock guards the description: CLOSED or PERMANENT (R15 to R17). -/
def LockState.guards : LockState → Bool
  | .noPassword => false
  | .closed => true
  | .opened => false
  | .permanent => true

/-- A drop with a notice. -/
def dropWith (code : NoticeCode) (subject : Option Nat) : AccessClass :=
  .drop (some (code, subject))

/-- Setpoint area, GUARD and BYPASS (R7, R8, R9). -/
def classifySetpoint (s : State) (a : Access) (o : Nat) : AccessClass :=
  let slot := offsetSlot o
  match a.op with
  | .read =>
    match a.mid with
    | .driveLink => if s.writer.state = .writing then .hold else .pass
    | .processor => .pass
    | .auxiliary => .pass
    | .service => .pass
  | .write _ enables =>
    match a.mid with
    | .processor =>
      if s.loader.gate = .guard then
        if o % 4 = 0 ∧ enables = allBytes then .intercept slot
        else dropWith .goalFormat (some slot.val)
      else .pass
    | .driveLink => dropWith .setpointSource (some slot.val)
    | .auxiliary => dropWith .setpointSource (some slot.val)
    | .service => dropWith .setpointSource (some slot.val)

/-- Status area (R10). -/
def classifyStatus (a : Access) (o : Nat) : AccessClass :=
  let slot := offsetSlot o
  match a.op with
  | .read => .pass
  | .write _ _ =>
    match a.mid with
    | .driveLink => .capture (.status slot (Fin.ofNat 4 o))
    | .processor => dropWith .statusSource (some slot.val)
    | .auxiliary => dropWith .statusSource (some slot.val)
    | .service => dropWith .statusSource (some slot.val)

/-- Grid window (R11). -/
def classifyGrid (s : State) (a : Access) (o : Nat) : AccessClass :=
  match a.op with
  | .read => .pass
  | .write _ enables =>
    match a.mid with
    | .processor =>
      if s.loader.gate = .guard then
        if enables = allBytes then .capture (.grid o) else dropWith .goalFormat none
      else .pass
    | .driveLink => dropWith .goalSource none
    | .auxiliary => dropWith .goalSource none
    | .service => dropWith .goalSource none

/-- Fault ring and statistics block (R12). -/
def classifyReportArea (a : Access) : AccessClass :=
  match a.op with
  | .read => .pass
  | .write _ _ =>
    match a.mid with
    | .processor => .pass
    | .driveLink => .drop none
    | .auxiliary => .drop none
    | .service => .drop none

/-- Control block, in every gate mode (R13, R14). -/
def classifyControl (a : Access) (o : Nat) : AccessClass :=
  match a.op with
  | .read => if 8 ≤ o ∧ o < 12 then .zero else .pass
  | .write _ _ =>
    match a.mid with
    | .processor =>
      if o = 0 then .capture .requestCode
      else if 1 ≤ o ∧ o < 5 then .capture (.argument (Fin.ofNat 4 (o - 1)))
      else if 8 ≤ o ∧ o < 12 then .capture (.keyWord (Fin.ofNat 4 (o - 8)))
      else if 16 ≤ o ∧ o < 32 then .drop none
      else .pass
    | .driveLink => dropWith .controlSource none
    | .auxiliary => dropWith .controlSource none
    | .service => dropWith .controlSource none

/-- Configuration block (R15, R16). -/
def classifyConfiguration (s : State) (a : Access) (o : Nat) : AccessClass :=
  match a.op with
  | .write _ _ =>
    match a.mid with
    | .processor =>
      if s.loader.gate = .loading then .hold
      else if s.lock.state.guards then dropWith .lockedWrite none
      else .pass
    | .driveLink => .drop none
    | .auxiliary => .drop none
    | .service => .drop none
  | .read =>
    if s.lock.state.guards then
      if 0x74 ≤ o ∧ o < 0x78 then .zero
      else match a.mid with
        | .processor => .pass
        | .driveLink => .pass
        | .auxiliary => .zero
        | .service => .zero
    else .pass

/-- User regions by attributes and lock (R17). -/
def classifyUser (s : State) (a : Access) (lockable fenced : Bool) : AccessClass :=
  let outsider : Bool := match a.mid with
    | .processor => false
    | .driveLink => false
    | .auxiliary => true
    | .service => true
  match a.op with
  | .read => if fenced && outsider then .zero else .pass
  | .write _ _ =>
    if lockable && s.lock.state.guards then dropWith .lockedWrite none
    else if fenced && outsider then .drop none
    else .pass

/-- The class of an access, by the region map, gate mode and lock state of this moment (R6). -/
def classify (s : State) (a : Access) : AccessClass :=
  match s.locate a.addr with
  | .configuration o => classifyConfiguration s a o
  | .control o => classifyControl a o
  | .plain => .pass
  | .region .setpoint o => classifySetpoint s a o
  | .region .status o => classifyStatus a o
  | .region .grid o => classifyGrid s a o
  | .region .ring _ => classifyReportArea a
  | .region .statistics _ => classifyReportArea a
  | .region (.user lockable fenced) _ => classifyUser s a lockable fenced

/-! ### Request arguments (R173) -/

/-- A subject kind. -/
inductive SubjectKind
  | hoist
  | group
  | all
  deriving DecidableEq, Repr

/-- The subject kind an argument word names. -/
def subjectKind (w : Word) : Option SubjectKind :=
  match w.toNat with
  | 1 => some .hoist
  | 2 => some .group
  | 3 => some .all
  | _ => none

/-- A level of the POWER request. -/
inductive PowerLevel
  | off
  | standby
  | run
  deriving DecidableEq, Repr

/-- The level an argument word names. -/
def powerLevel (w : Word) : Option PowerLevel :=
  match w.toNat with
  | 0 => some .off
  | 1 => some .standby
  | 2 => some .run
  | _ => none

/-- The goal mode an argument word names. -/
def goalModeOf (w : Word) : Option GoalMode :=
  match w.toNat with
  | 0 => some .cued
  | 1 => some .direct
  | _ => none

/-- The gate mode a SET_MODE argument names: `true` for BYPASS. -/
def bypassAsked (w : Word) : Option Bool :=
  match w.toNat with
  | 0 => some false
  | 1 => some true
  | _ => none

/-- The present hoist a number word names. -/
def State.hoistNamed (s : State) (w : Word) : Option Slot :=
  if h : w.toNat < 128 then
    if s.present ⟨w.toNat, h⟩ then some ⟨w.toNat, h⟩ else none
  else none

/-- The in-use group a number word names. -/
def State.groupNamed (s : State) (w : Word) : Option GroupNo :=
  if h : w.toNat < 32 then
    if (s.group ⟨w.toNat, h⟩).isSome then some ⟨w.toNat, h⟩ else none
  else none

/-- What a subject's kind and number name: one hoist, one group, or every hoist. -/
inductive Subject
  | hoist (slot : Slot)
  | group (number : GroupNo)
  | all
  deriving DecidableEq, Repr

/-- The subject of a kind and a number word; for ALL the number is not read. -/
def State.subjectNamed (s : State) (k : SubjectKind) (w : Word) : Option Subject :=
  match k with
  | .hoist => (s.hoistNamed w).map .hoist
  | .group => (s.groupNamed w).map .group
  | .all => some .all

end Sys2Proof.Machine
end

