-- ==== Sys2Proof/Machine/Reports.lean ====
section
/-! DEFINITION. The Report Writer: snapshots, the choice of its next word, and what follows the
completion of each word (11, R168 to R172). -/

namespace Sys2Proof.Machine

/-! ### Snapshots (R171, R172) -/

/-- Copy the frame count, the batch number and the counters into a snapshot, which becomes OWED. -/
def takeSnapshot (s : State) : State :=
  { s with report := { s.report with
      snapshot := .owed ⟨s.report.frameCount, s.pacer.batchNumber, s.report.counters⟩ } }

/-- Whether the frame count stands at a cadence point at which a snapshot is taken. -/
def State.atCadencePoint (s : State) : Bool :=
  s.loader.gate.installed && decide (s.report.snapshot = .notTaken) &&
    match s.report.cadence with
    | none => false
    | some (k, offset) => decide (s.report.frameCount.toNat % (16 * k) = offset)

/-- The cadence snapshot of a FRAME arrival; a point that finds one in hand is skipped. -/
def cadenceSnapshot (s : State) : State := if s.atCadencePoint then takeSnapshot s else s

/-- Word n of the statistics block from a snapshot's values (R173). -/
def snapshotWord (v : SnapshotValues) (n : Nat) : Word :=
  if n = 0 then v.frameCount
  else if n = 1 then v.batchNumber.setWidth 32
  else if h : n - 2 < 32 then v.counters[n - 2] else 0

/-- The word of the block written after `written` others: 1 to 63 rising, then 0 (R171). -/
def snapshotOrder (written : Nat) : Nat := if written < 63 then written + 1 else 0

/-! ### Fault records (R169, R173) -/

/-- Word n of a fault record. -/
def recordWord (r : FaultRecord) (sequence : Nat) (n : Nat) : Word :=
  match n with
  | 0 => BitVec.ofNat 32 sequence
  | 1 =>
    let (code, cls) := faultNumber r.code
    BitVec.ofNat 32 (code + 256 * cls + 65536 * r.subject.getD 255)
  | 2 => r.valueA
  | _ => r.valueB

/-- The word of a record written after `written` others: 1, 2, 3, then 0. -/
def recordOrder (written : Nat) : Nat := if written < 3 then written + 1 else 0

/-- The sequence number after another: 4,294,967,295 is followed by 1. -/
def nextSequenceNumber (n : Nat) : Nat := if n < 4294967295 then n + 1 else 1

/-- The claim of the next word of the record whose write has begun. -/
def recordClaim (r : FaultRecord) (w : RecordWrite) : ReportClaim where
  word := .faultRecord
  addr := addrOf (w.ring.base + 4 * w.index + recordOrder w.written)
  data := recordWord r w.sequence (recordOrder w.written)

/-! ### The choice of the next word (R169, R170) -/

/-- The lowest dirty part-owned word. -/
def lowestDirty (s : State) : Option (Fin 16) :=
  (List.finRange 16).find? fun i => s.report.dirty[i]

/-- Whether the request in hand waits for the write of a word. -/
def State.awaits (s : State) (i : Fin 16) : Bool :=
  match s.requests.state with
  | .closing _ awaited => awaited[i]
  | .idle => false
  | .inHand _ => false
  | .answered _ => false

/-- Claim a dirty part-owned word at its latest value. -/
def claimMirror (i : Fin 16) (s : State) : State :=
  { s with report := { s.report with
      dirty := s.report.dirty.set i.val false i.isLt
      claim := some ⟨.mirror i (s.awaits i), addrOf (Config.controlBase + 16 + i.val),
        s.mirror i⟩ } }

/-- Claim the next word of the snapshot, OWED or WRITING. -/
def claimSnapshot (s : State) : State :=
  let claimAt (v : SnapshotValues) (written : Nat) : State :=
    { s with report := { s.report with
        snapshot := .writing v written
        claim := some ⟨.snapshot,
          addrOf (s.regionBase .statistics + snapshotOrder written),
          snapshotWord v (snapshotOrder written)⟩ } }
  match s.report.snapshot with
  | .notTaken => s
  | .owed v => claimAt v 0
  | .writing v written => claimAt v written

/-- The part-owned words first, then the snapshot. -/
def claimMirrorOrSnapshot (s : State) : State :=
  match lowestDirty s with
  | some i => claimMirror i s
  | none => claimSnapshot s

/-- Begin the write of the oldest queued record: it takes the next sequence number. -/
def beginRecord (r : FaultRecord) (p : RingPlacement) (s : State) : State :=
  let w : RecordWrite := ⟨s.report.nextSequence, p, s.report.writeIndex, 0⟩
  { s with report := { s.report with
      nextSequence := nextSequenceNumber s.report.nextSequence
      recordWrite := some w
      claim := some (recordClaim r w) } }

/-- Whether a word of the Report Writer is in flight at the memory port. -/
def State.reportInFlight (s : State) : Bool :=
  match s.memPort.op with
  | none => false
  | some op => op.claimant = .reportWriter

/-- The choice of the next word to claim (R169). -/
def chooseReport (s : State) : State :=
  match s.report.queue, s.report.recordWrite, s.report.ring with
  | r :: _, some w, _ => { s with report := { s.report with claim := some (recordClaim r w) } }
  | r :: _, none, some p => beginRecord r p s
  | _, _, _ => claimMirrorOrSnapshot s

/-- The Report Writer claims its next word when it has none claimed and its previous word has
completed (R3, R169). -/
def claimReport (s : State) : State :=
  if s.report.claim.isSome || s.reportInFlight then s else chooseReport s

/-! ### Completions (R166, R169, R171, R172) -/

/-- The end of a fault record's write, after its word 0. The ring placement goes with a record
that outlived a teardown (R168). -/
def recordWritten (w : RecordWrite) (s : State) : State :=
  State.queueMarker <| State.count (c := .recordsWritten)
    { s with report := { s.report with
        queue := s.report.queue.tail
        recordWrite := none
        writeIndex := if w.index + 1 < w.ring.count then w.index + 1 else 0
        lastSequence := w.sequence
        ring := if s.loader.gate.installed then s.report.ring else none } }

/-- A word of a fault record completes. -/
def recordWordDone (s : State) : State :=
  match s.report.recordWrite with
  | none => s
  | some w =>
    if w.written < 3 then
      { s with report := { s.report with recordWrite := some { w with written := w.written + 1 } } }
    else recordWritten w s

/-- A write the request waits for completes; the last of them makes the state IDLE (R166). -/
def mirrorWordDone (i : Fin 16) (awaited : Bool) (s : State) : State :=
  match s.requests.state with
  | .closing r marks =>
    if awaited then
      let left := marks.set i.val false i.isLt
      let state : RequestState :=
        if left = Vector.replicate 16 false then .idle else .closing r left
      { s with requests := { s.requests with state := state } }
    else s
  | .idle => s
  | .inHand _ => s
  | .answered _ => s

/-- The completion of a snapshot's word 0 may end SNAPSHOT_STATS, or start its snapshot (R172). -/
def snapshotWritten (v : SnapshotValues) (s : State) : State :=
  let done : State := { s with report := { s.report with snapshot := .notTaken } }
  match s.report.statsRequest with
  | .noRequest => done
  | .own =>
    State.answer { done with report := { done.report with statsRequest := .noRequest } }
      .done v.frameCount
  | .afterCurrent =>
    takeSnapshot { done with report := { done.report with statsRequest := .own } }

/-- A word of the snapshot completes. -/
def snapshotWordDone (s : State) : State :=
  match s.report.snapshot with
  | .writing v written =>
    if written < 63 then
      { s with report := { s.report with snapshot := .writing v (written + 1) } }
    else snapshotWritten v s
  | .notTaken => s
  | .owed _ => s

/-- The word the Report Writer had claimed has been written. -/
def reportWordDone (s : State) : State :=
  match s.report.claim with
  | none => s
  | some c =>
    let freed : State := { s with report := { s.report with claim := none } }
    match c.word with
    | .faultRecord => recordWordDone freed
    | .mirror i awaited => mirrorWordDone i awaited freed
    | .snapshot => snapshotWordDone freed

/-- A result handed at this event: the request waits for every part-owned word but 12h that is
dirty at the event's end (R166). -/
def drawAwaited (s : State) : State :=
  match s.requests.state with
  | .answered r =>
    { s with requests := { s.requests with state := .closing r (s.report.dirty.set 2 false) } }
  | .idle => s
  | .inHand _ => s
  | .closing _ _ => s

end Sys2Proof.Machine
end

