-- ==== Sys2Proof/Machine/Hoists.lean ====
section
/-! DEFINITION. The power ladder of a hoist: what each rung sets (03, R46 to R60). -/

namespace Sys2Proof.Machine

/-- The drive command of a power state (R46). -/
def commandOf : PowerState → Drive
  | .off => .off
  | .waking => .powered
  | .standby => .powered
  | .releasing => .released
  | .run => .released

/-- A hoist in a new power state; a change of drive command makes it command dirty (R46). -/
def Hoist.withPower (h : Hoist) (p : PowerState) : Hoist :=
  { h with
    power := p
    command := commandOf p
    commandDirty := h.commandDirty || decide (h.command ≠ commandOf p) }

/-- OFF to WAKING (R50). -/
def Hoist.wake (h : Hoist) : Hoist :=
  { h.withPower .waking with delay := h.wakeDelay, confirm := 0 }

/-- STANDBY to RELEASING (R53). -/
def Hoist.release (h : Hoist) : Hoist :=
  { h.withPower .releasing with delay := h.brakeDelay, confirm := 0 }

/-- To STANDBY, with a settle window of the confirm limit (R56). -/
def Hoist.fallToStandby (h : Hoist) (confirmLimit : Nat) : Hoist :=
  { h.withPower .standby with runDemand := false, delay := 0, confirm := 0, settle := confirmLimit }

/-- To OFF (R57). -/
def Hoist.fallToOff (h : Hoist) : Hoist :=
  { h.withPower .off with runDemand := false, delay := 0, confirm := 0, settle := 0 }

/-- WAKING to STANDBY, confirmed (R52). -/
def Hoist.wakeConfirmed (h : Hoist) : Hoist :=
  { h.withPower .standby with confirm := 0, settle := 0 }

/-- RELEASING to RUN, confirmed (R54). -/
def Hoist.releaseConfirmed (h : Hoist) : Hoist :=
  { h.withPower .run with runDemand := false, sinceStep := 0, confirm := 0, settle := 0 }

/-- The installed confirm limit. -/
def State.confirmFrames (s : State) : Nat := s.confirmLimit.getD 0

/-- Whether a STANDBY hoist may go to RELEASING: every condition of R53. -/
def State.mayRelease (s : State) (h : Hoist) : Bool :=
  decide (h.power = .standby) && h.runDemand && decide (s.loader.gate = .guard) && s.enabled &&
    h.causes.isEmpty && !(match h.group with | none => false | some g => s.groupHeld g) &&
    h.synced && !h.syncDue

/-- The test of R53 at an event that may complete its conditions. -/
def tryRelease (slot : Slot) (s : State) : State :=
  match s.hoist slot with
  | none => s
  | some h => if s.mayRelease h then s.updateHoist slot Hoist.release else s

/-- Run demand is set on a hoist that is not in RUN, with R50 or R53 at once (R49). -/
def setRunDemand (slot : Slot) (s : State) : State :=
  match s.hoist slot with
  | none => s
  | some h =>
    match h.power with
    | .run => s
    | .off => s.updateHoist slot fun h => { h.wake with runDemand := true }
    | .standby => tryRelease slot (s.updateHoist slot fun h => { h with runDemand := true })
    | .waking => s.updateHoist slot fun h => { h with runDemand := true }
    | .releasing => s.updateHoist slot fun h => { h with runDemand := true }

/-- Run demand is cleared (R49). -/
def clearRunDemand (slot : Slot) (s : State) : State :=
  s.updateHoist slot fun h => { h with runDemand := false }

/-- A hoist in RELEASING or RUN goes to STANDBY; one below stays, and run demand is cleared in
every state (R56, R61, R102). -/
def standDown (slot : Slot) (s : State) : State :=
  s.updateHoist slot fun h =>
    match h.power with
    | .releasing => h.fallToStandby s.confirmFrames
    | .run => h.fallToStandby s.confirmFrames
    | .off => { h with runDemand := false }
    | .waking => { h with runDemand := false }
    | .standby => { h with runDemand := false }

/-- The active goal of a hoist is removed (R84). -/
def removeGoal (slot : Slot) (s : State) : State :=
  s.updateHoist slot fun h => { h with goal := none }

/-- A sync: the measured position is taken as the commanded position (R47). -/
def Hoist.syncTo (h : Hoist) : Hoist :=
  { h with commanded := h.measured.getD h.commanded, syncDue := true }

/-- A present hoist that is synced. -/
def State.syncedAt (s : State) (slot : Slot) : Bool :=
  match s.hoist slot with
  | none => false
  | some h => h.synced

end Sys2Proof.Machine
end

