-- ==== Sys2Proof/Machine/Batches.lean ====
section
/-! DEFINITION. The Release Writer's batches: how a record and a batch are composed, what starts
one, and the HOLD, SYNC and HALT batches (03 R48; 07 R120 to R125; 09 R153). -/

namespace Sys2Proof.Machine

/-! ### Composition -/

/-- Compose one record for a present slot. Sync due makes it a SYNC record with no hint; command
dirty and sync due are cleared, and clearing sync due may let a STANDBY hoist go on (R48, R53). It
is so in every gate mode: a HOLD batch owed since GUARD that starts in BYPASS clears the sync due of
a hoist first synced there, which R145 would keep set (log entry 32). -/
def composeRecord (kind : RecordKind) (hint : Nat) (slot : Slot) (s : State) :
    Option SetpointRecord × State :=
  match s.hoist slot with
  | none => (none, s)
  | some h =>
    let record : SetpointRecord :=
      if h.syncDue then ⟨slot, h.commanded, h.command, .sync, 0⟩
      else ⟨slot, h.commanded, h.command, kind, hint⟩
    let cleared := s.updateHoist slot fun h => { h with commandDirty := false, syncDue := false }
    (some record, if h.syncDue then tryRelease slot cleared else cleared)

/-- Compose one record for each of some slots, in order, with a speed hint of 0. -/
def composeRecords (kind : RecordKind) : List Slot → State → List SetpointRecord × State
  | [], s => ([], s)
  | slot :: rest, s =>
    match composeRecord kind 0 slot s with
    | (none, s1) => composeRecords kind rest s1
    | (some r, s1) =>
      let (rs, s2) := composeRecords kind rest s1
      (r :: rs, s2)

/-- Give records the next batch number (R111, R120). -/
def numberBatch (records : List SetpointRecord) (s : State) : Batch × State :=
  let n := s.pacer.batchNumber + 1
  (⟨n, records⟩, { s with pacer := { s.pacer with batchNumber := n } })

/-- The batch in hand from a whole batch. -/
def Batch.inHand (b : Batch) : BatchInHand := ⟨b.number, b.records, 0, false⟩

/-- Hand a batch to an IDLE Release Writer, which becomes STARTING (R124). -/
def handBatch (b : Batch) (s : State) : State :=
  { s with writer := { s.writer with state := .starting, hand := some b.inHand } }

/-- Compose records into a numbered batch for an IDLE writer; no record makes no batch. -/
def startBatch (kind : RecordKind) (slots : List Slot) (s : State) : State :=
  match composeRecords kind slots s with
  | ([], s1) => s1
  | (records, s1) =>
    let (b, s2) := numberBatch records s1
    handBatch b s2

/-! ### HOLD batches (R121) -/

/-- Slots joined to an owed HOLD batch, each once. -/
def joinSlots (have_ new : List Slot) : List Slot :=
  new.foldl (fun l x => if x ∈ l then l else l ++ [x]) have_

/-- The owed list with slots due a HOLD record: they join the owed HOLD batch, or owe a new one. -/
def oweHold (slots : List Slot) : List OwedBatch → List OwedBatch
  | [] => [.hold (joinSlots [] slots)]
  | .hold l :: rest => .hold (joinSlots l slots) :: rest
  | .sync l :: rest => .sync l :: oweHold slots rest

/-- Slots due a HOLD record are handed to the Release Writer (R121). -/
def holdDue (slots : List Slot) (s : State) : State :=
  match s.writer.state with
  | .idle => startBatch .hold slots s
  | .starting => { s with writer := { s.writer with owed := oweHold slots s.writer.owed } }
  | .writing => { s with writer := { s.writer with owed := oweHold slots s.writer.owed } }

/-! ### SYNC batches (R122) -/

/-- The present synced hoists in slot order. -/
def State.syncedSlots (s : State) : List Slot := allSlots.filter s.syncedAt

/-- A SYNC batch of some slots starts at once, or is owed at the end of the list. One that starts at
once is composed at this event, which clears sync due (R48, R122), where a table of 9.6 shows it
still set after such a RESUME (log entry 33). -/
def syncOwed (slots : List Slot) (s : State) : State :=
  if slots = [] then s
  else match s.writer.state with
    | .idle => startBatch .sync slots s
    | .starting => { s with writer := { s.writer with owed := s.writer.owed ++ [.sync slots] } }
    | .writing => { s with writer := { s.writer with owed := s.writer.owed ++ [.sync slots] } }

/-- Every synced present hoist is synced, and a SYNC batch of them is owed (R47, R122). -/
def syncAll (s : State) : State :=
  let slots := s.syncedSlots
  syncOwed slots (forEach (fun slot => (State.updateHoist · slot Hoist.syncTo)) slots s)

/-! ### The HALT batch (R123, R153) -/

/-- The HALT batch becomes the batch in hand. -/
def handHaltBatch (b : Batch) (s : State) : State :=
  { s with writer := { s.writer with hand := some b.inHand, following := none, owed := [] } }

/-- The HALT batch follows the record in hand, whose first word has been granted. -/
def haltAfterRecord (b : Batch) (h : BatchInHand) (s : State) : State :=
  { s with writer := { s.writer with
      hand := some { h with
        records := h.records.take 1
        abandoned := h.abandoned || decide (1 < h.records.length) }
      following := some b
      owed := [] } }

/-- The records that a halt takes from a Release Writer before they are written: of the batch in
hand all but one whose first word has been granted, and those of a HALT batch behind it (R123). -/
def ReleaseWriter.discarded (w : ReleaseWriter) : List SetpointRecord :=
  let behind := match w.following with
    | none => []
    | some b => b.records
  match w.state, w.hand with
  | .idle, _ => []
  | .starting, none => behind
  | .writing, none => behind
  | .starting, some h => h.records ++ behind
  | .writing, some h => (if h.granted = 0 then h.records else h.records.drop 1) ++ behind

/-- A sync whose record is discarded unwritten is due again, so that the next record written for the
hoist is the SYNC record that R118 and R125 lay down (log entry 31). -/
def resyncDiscarded (r : SetpointRecord) (s : State) : State :=
  if r.kind = .sync then s.updateHoist r.slot fun h => { h with syncDue := true } else s

/-- The Release Writer at the latch of the halt in GUARD: the batch in hand is abandoned, what is
owed is discarded, and the HALT batch of every present hoist follows directly (R123). A hoist whose
SYNC record is discarded with them is recorded with kind SYNC (R118, R125; log entry 31). -/
def haltBatch (s : State) : State :=
  let resynced := forEach resyncDiscarded s.writer.discarded s
  match composeRecords .halt resynced.presentSlots resynced with
  | ([], s1) => s1
  | (records, s1) =>
    let (b, s2) := numberBatch records s1
    match s2.writer.state with
    | .idle => handBatch b s2
    | .starting => handHaltBatch b s2
    | .writing =>
      match s2.writer.hand with
      | none => handHaltBatch b s2
      | some h => if h.granted = 0 then handHaltBatch b s2 else haltAfterRecord b h s2

/-! ### Owed batches in turn (R124) -/

/-- Compose an owed batch. -/
def composeOwed : OwedBatch → State → List SetpointRecord × State
  | .hold slots, s => composeRecords .hold slots s
  | .sync slots, s => composeRecords .sync slots s

/-- The first owed batch becomes the batch in hand, composed and numbered at this event. -/
def startOwed : List OwedBatch → State → State
  | [], s => { s with writer := .clear }
  | o :: rest, s =>
    match composeOwed o s with
    | ([], s1) => startOwed rest s1
    | (records, s1) =>
      let (b, s2) := numberBatch records s1
      { s2 with writer := { s2.writer with
          hand := some b.inHand
          following := none
          owed := rest } }

/-- What follows a batch directly: the HALT batch behind an abandoned one, else the first owed
batch; with neither the writer is IDLE. -/
def nextBatch (s : State) : State :=
  match s.writer.following with
  | some b =>
    { s with writer := { s.writer with hand := some b.inHand, following := none } }
  | none => startOwed s.writer.owed s

/-! ### Words of a record (R125, R173) -/

/-- Word n of a setpoint record of a numbered batch. -/
def setpointWord (r : SetpointRecord) (number : BitVec 16) (n : Nat) : Word :=
  match n with
  | 0 => signedWord r.position
  | 1 => BitVec.ofNat 32 (driveCode r.command + 16 * kindCode r.kind)
  | 2 => BitVec.ofNat 32 r.hint
  | _ => BitVec.ofNat 32 (number.toNat + 65536 * r.slot.val)

/-- The word the Release Writer has to write next, and its address. -/
def nextReleaseWord (s : State) : Option (Addr × Word) :=
  match s.writer.hand with
  | none => none
  | some h =>
    match h.records with
    | [] => none
    | r :: _ =>
      if h.granted < 4 then
        some (addrOf (s.regionBase .setpoint + 4 * r.slot.val + h.granted),
          setpointWord r h.number h.granted)
      else none

end Sys2Proof.Machine
end

