-- ==== Sys2Proof/Machine/Movers.lean ====
section
/-! DEFINITION. Movers: linking and unlinking (04 R78; 06 R96, R98; 07 R119). -/

namespace Sys2Proof.Machine

/-- The mover that holds a hoist: the hoist itself, or its group (R73). -/
def Hoist.mover (h : Hoist) (slot : Slot) : Mover :=
  match h.group with
  | none => .hoist slot
  | some g => .group g

/-- The hoists a mover holds, in member-list order. -/
def State.moverSlots (s : State) : Mover → List Slot
  | .hoist slot => [slot]
  | .group g => s.members g

/-- The pacing queue of a mover. -/
def State.moverQueue (s : State) : Mover → QueueNo
  | .hoist slot => match s.hoist slot with | none => 0 | some h => h.queue
  | .group g => match s.group g with | none => 0 | some r => r.queue

/-- Whether a mover is linked. -/
def State.linked (s : State) (m : Mover) : Bool :=
  s.pacer.queues.any fun q => m ∈ q.movers

/-- The movers linked, queue by queue. -/
def State.linkedMovers (s : State) : List Mover :=
  s.pacer.queues.toList.flatMap (·.movers)

/-- The mover after another in a list, or the list's end. -/
def resumeAfter (m : Mover) : List Mover → ResumePoint
  | [] => .tail
  | x :: rest =>
    if x = m then
      match rest with
      | [] => .tail
      | y :: _ => .mover y
    else resumeAfter m rest

/-- A queue without a mover; a resume point at it moves to the mover after it (R119). -/
def PacingQueue.unlink (m : Mover) (q : PacingQueue) : PacingQueue :=
  { q with
    movers := q.movers.filter (· ≠ m)
    resume := if q.resume = some (.mover m) then some (resumeAfter m q.movers) else q.resume }

/-- A MOVING group goes to IDLE (R98). -/
def groupToIdle (m : Mover) (s : State) : State :=
  match m with
  | .hoist _ => s
  | .group g => s.updateGroup g fun r => if r.state = .moving then { r with state := .idle } else r

/-- Unlink a mover from its queue (R119). -/
def unlinkMover (m : Mover) (s : State) : State :=
  groupToIdle m
    { s with pacer := { s.pacer with queues := s.pacer.queues.map (PacingQueue.unlink m) } }

/-- A linked group is MOVING, its last spread 0 (R96). -/
def groupToMoving (m : Mover) (s : State) : State :=
  match m with
  | .hoist _ => s
  | .group g => s.updateGroup g fun r => { r with state := .moving, lastSpread := 0 }

/-- Link a mover at the tail of its queue; its hoists not in RUN take run demand (R78, R96). -/
def linkMover (m : Mover) (s : State) : State :=
  let queued := s.updateQueue (s.moverQueue m) fun q => { q with movers := q.movers ++ [m] }
  let moving := groupToMoving m queued
  forEach setRunDemand (moving.moverSlots m) moving

/-- The active goals of a mover's hoists are removed and the mover is unlinked, as WITHDRAW for
that mover would (R65, R80). -/
def withdrawMover (m : Mover) (s : State) : State :=
  unlinkMover m (forEach removeGoal (s.moverSlots m) s)

/-- Every active goal is removed and every mover unlinked; MOVING groups go to IDLE (R84, R98). -/
def removeAllMotion (s : State) : State :=
  forEach unlinkMover s.linkedMovers (forEach removeGoal allSlots s)

/-- The active goals among some hoists. -/
def State.goalCount (s : State) (slots : List Slot) : Nat :=
  slots.countP fun slot => match s.hoist slot with | none => false | some h => h.goal.isSome

end Sys2Proof.Machine
end

