-- ==== Sys2Proof/Machine/Groups.lean ====
section
/-! DEFINITION. Truss groups: entering HELD, member faults, the retry hold and the way back to
IDLE (06, R99 to R109). -/

namespace Sys2Proof.Machine

/-- The members of a group with a non-empty fault cause set. -/
def State.faultedMembers (s : State) (g : GroupNo) : Nat := (s.members g).countP s.faulted

/-- The retry counter at the retry hold under RETRY; under LATCH it stays as it is (R102, R105). -/
def TrussGroup.restartRetry (r : TrussGroup) : TrussGroup :=
  match r.policy with
  | .retry => { r with retry := r.retryHold }
  | .latch => r

/-- The group becomes HELD: its own record alone (R102 steps 1 and 2; R104). -/
def TrussGroup.hold (r : TrussGroup) : TrussGroup := { r with state := .held }.restartRetry

/-- A group becomes HELD in GUARD: members stand down and lose their goals, the mover is unlinked,
and a HOLD batch of the members is due (R102, R103). -/
def holdGroup (g : GroupNo) (s : State) : State :=
  let held := s.updateGroup g TrussGroup.hold
  let members := held.members g
  let down := forEach removeGoal members (forEach standDown members held)
  holdDue members (unlinkMover (.group g) down)

/-- A group becomes HELD: with R102's effects in GUARD, its record alone in BYPASS (R104). -/
def enterHeld (g : GroupNo) (s : State) : State :=
  if s.loader.gate = .guard then holdGroup g s else s.updateGroup g TrussGroup.hold

/-- A cause joins a group's set. -/
def addGroupCause (g : GroupNo) (c : GroupCause) (s : State) : State :=
  s.updateGroup g fun r => { r with causes := r.causes.add c }

/-- The GROUP record of MEMBER_FAULT: the member, and how many members are faulted (R101). The event
after which they are counted is the member's own: where several members take causes at one FRAME
arrival, those whose turn has not come are not counted yet (log entry 34). -/
def memberFaultRecord (g : GroupNo) (slot : Slot) (s : State) : FaultRecord :=
  ⟨.group .memberFault, some g.val, BitVec.ofNat 32 slot.val,
    BitVec.ofNat 32 (s.faultedMembers g)⟩

/-- MEMBER_FAULT joins the set with its record, if it is not in it (R101). -/
def addMemberFault (g : GroupNo) (slot : Slot) (s : State) : State :=
  match s.group g with
  | none => s
  | some r =>
    if r.causes.memberFault then s
    else (addGroupCause g .memberFault s).raise (memberFaultRecord g slot s)

/-- A member's first fault cause reaches its group (R101, R105). -/
def memberFaulted (g : GroupNo) (slot : Slot) (s : State) : State :=
  match s.group g with
  | none => s
  | some r =>
    match r.state with
    | .held => (addMemberFault g slot s).updateGroup g TrussGroup.restartRetry
    | .idle => enterHeld g (addMemberFault g slot s)
    | .moving => enterHeld g (addMemberFault g slot s)

/-- A further cause on a member of a HELD group restarts a retry hold (R105). -/
def restartHeldRetry (g : GroupNo) (s : State) : State :=
  s.updateGroup g fun r => if r.state = .held then r.restartRetry else r

/-- A HELD group returns to IDLE (R109). -/
def TrussGroup.returnToIdle (r : TrussGroup) : TrussGroup :=
  { r with causes := .empty, retry := 0, state := .idle }

/-- The return of a RETRY group: HELD, its counter 0 and no member faulted (R106). -/
def returnIfQuiet (g : GroupNo) (s : State) : State :=
  match s.group g with
  | none => s
  | some r =>
    if r.state = .held ∧ r.policy = .retry ∧ r.retry = 0 ∧ s.faultedMembers g = 0 then
      s.updateGroup g TrussGroup.returnToIdle
    else s

/-- A FRAME arrival's count of one group's retry counter, with the return it may bring (R106). -/
def retryCount (g : GroupNo) (s : State) : State :=
  match s.group g with
  | none => s
  | some r =>
    if r.state = .held ∧ r.policy = .retry ∧ 0 < r.retry then
      returnIfQuiet g (s.updateGroup g fun r => { r with retry := r.retry - 1 })
    else s

/-! ### The spread check (R99, R100) -/

/-- A member's offset: measured less commanded position. -/
def Hoist.offset (h : Hoist) : Int := h.measured.getD 0 - h.commanded

/-- The members' offsets. -/
def State.offsets (s : State) (g : GroupNo) : List Int :=
  (s.members g).filterMap fun slot => (s.hoist slot).map Hoist.offset

/-- The largest offset less the smallest. -/
def spreadOf : List Int → Nat
  | [] => 0
  | x :: rest => (rest.foldl max x - rest.foldl min x).toNat

/-- SPREAD joins the set with its record, and the group becomes HELD (R100). -/
def spreadFound (g : GroupNo) (spread tolerance : Nat) (s : State) : State :=
  holdGroup g ((addGroupCause g .spread s).raise
    ⟨.group .spread, some g.val, unsignedWord spread, BitVec.ofNat 32 tolerance⟩)

/-- The spread check at a taken arrival in GUARD: a MOVING group, every member synced (R99). -/
def spreadCheck (g : GroupNo) (s : State) : State :=
  match s.group g with
  | none => s
  | some r =>
    if r.state = .moving ∧ r.members.all s.syncedAt then
      let spread := spreadOf (s.offsets g)
      let noted := s.updateGroup g fun r => { r with lastSpread := spread }
      if r.tolerance < spread then spreadFound g spread r.tolerance noted else noted
    else s

end Sys2Proof.Machine
end

