-- ==== Sys2Proof/Machine/Halt.lean ====
section
/-! DEFINITION. The Halt Controller: the halt latch and its effects, the stop channels, the
discrepancy count and the required cycle (09, R148 to R154). -/

namespace Sys2Proof.Machine

/-- The effects of the latch in GUARD: hoists stand down, goals and movers go, and the HALT batch
follows what is being written (R61, R152). -/
def haltEffects (s : State) : State :=
  haltBatch (removeAllMotion (forEach standDown allSlots s))

/-- A cause reaches the halt latch (R151). The record is handed over before the effects. -/
def haltCause (c : HaltCause) (subject : Option Nat) (a b : Word) (s : State) : State :=
  let record : FaultRecord := ⟨.halt c, subject, a, b⟩
  if s.halt.latched then
    if s.halt.causes.has c then s
    else State.raise { s with halt := { s.halt with causes := s.halt.causes.add c } } record
  else
    let latched := State.raise
      { s with halt := { s.halt with latched := true, causes := HaltCauses.empty.add c } } record
    if s.loader.gate = .guard then haltEffects latched else latched

/-! ### Channels (R148, R150) -/

def HaltController.channel (h : HaltController) : Channel → ChannelState
  | .a => h.channelA
  | .b => h.channelB

def HaltController.setChannel (h : HaltController) (c : Channel) (x : ChannelState) :
    HaltController :=
  match c with
  | .a => { h with channelA := x }
  | .b => { h with channelB := x }

/-- Agreement of the channels at a channel event: the discrepancy count is 0, and a required cycle
may advance (R149, R150). -/
def HaltController.agree (h : HaltController) : HaltController :=
  match h.channelA, h.channelB with
  | .opened, .opened =>
    { h with discrepancy := 0, cycle := if h.cycle = .awaitOpen then .awaitClose else h.cycle }
  | .closed, .closed =>
    { h with discrepancy := 0, cycle := if h.cycle = .awaitClose then .notRequired else h.cycle }
  | .opened, .closed => h
  | .closed, .opened => h

/-- A channel goes from CLOSED to OPEN (R148). -/
def channelOpens (c : Channel) (s : State) : State :=
  let opened : State := { s with halt := s.halt.setChannel c .opened }
  let caused := haltCause .stopOpened none (BitVec.ofNat 32 (channelCode c)) s.report.frameCount
    opened
  { caused with halt := caused.halt.agree }

/-- A channel goes from OPEN to CLOSED (R148). -/
def channelCloses (c : Channel) (s : State) : State :=
  { s with halt := (s.halt.setChannel c .closed).agree }

/-! ### The discrepancy count (R149) -/

/-- The channel that stands OPEN while the two differ. -/
def HaltController.openChannel (h : HaltController) : Channel :=
  if h.channelA = .opened then .a else .b

/-- The count reaches 8: STOP_DISCREPANCY, and a cycle is required (R149, R150). -/
def discrepancyReached (s : State) : State :=
  haltCause .stopDiscrepancy none (BitVec.ofNat 32 (channelCode s.halt.openChannel))
    (BitVec.ofNat 32 Config.discrepancyLimit)
    { s with halt := { s.halt with
        discrepancy := Config.discrepancyLimit, cycle := .awaitOpen } }

/-- A FRAME arrival's comparison of the two channels (R149). -/
def discrepancyCount (s : State) : State :=
  if s.halt.channelA = s.halt.channelB then { s with halt := { s.halt with discrepancy := 0 } }
  else if s.halt.discrepancy + 1 < Config.discrepancyLimit then
    { s with halt := { s.halt with discrepancy := s.halt.discrepancy + 1 } }
  else if s.halt.discrepancy + 1 = Config.discrepancyLimit then discrepancyReached s
  else s

end Sys2Proof.Machine
end

