-- ==== Sys2Proof/Machine/Supervision.lean ====
section
/-! DEFINITION. The Status Monitor: arrivals, checks, causes and their effects, the status age, and
the counts of one hoist at a FRAME arrival (03 R51, R55, R58, R60; 08 R131 to R145). -/

namespace Sys2Proof.Machine

/-! ### Causes (R139 to R141) -/

/-- A cause joins a hoist's set, with its HOIST record, if it is not in it (R139). -/
def addCause (slot : Slot) (c : HoistCause) (a b : Word) (s : State) : State :=
  match s.hoist slot with
  | none => s
  | some h =>
    if h.causes.has c then s
    else (s.updateHoist slot fun h => { h with causes := h.causes.put c true }).raise
      ⟨.hoist c, some slot.val, a, b⟩

/-- The step down of a first cause (R140 step 1). -/
def Hoist.powerDown (h : Hoist) (confirmLimit : Nat) : Hoist :=
  let down : Hoist := if h.reported = some .off then h.fallToOff else h.fallToStandby confirmLimit
  match h.power with
  | .releasing => down
  | .run => down
  | .off => { h with runDemand := false }
  | .waking => { h with runDemand := false }
  | .standby => { h with runDemand := false }

/-- The effects of a first cause in GUARD (R140). A member that makes its group HELD is handed over
with the group's members; any other hoist is handed over on its own. -/
def firstCause (slot : Slot) (s : State) : State :=
  match s.hoist slot with
  | none => s
  | some h =>
    let down := removeGoal slot (s.updateHoist slot (·.powerDown s.confirmFrames))
    match h.group with
    | none => holdDue [slot] down
    | some g =>
      if s.groupHeld g then memberFaulted g slot (holdDue [slot] down)
      else memberFaulted g slot down

/-- The effects of a cause added to a set that is not empty, in GUARD (R49, R105, R141). -/
def furtherCause (slot : Slot) (s : State) : State :=
  match s.hoist slot with
  | none => s
  | some h =>
    let cleared := s.updateHoist slot fun h =>
      match h.power with
      | .off => { h with runDemand := false }
      | .waking => { h with runDemand := false }
      | .standby => { h with runDemand := false }
      | .releasing => h
      | .run => h
    match h.group with
    | none => cleared
    | some g => restartHeldRetry g cleared

/-- The effects of causes just added in GUARD, by whether the set was empty before them. -/
def causeEffects (first : Bool) (slot : Slot) (s : State) : State :=
  if first then firstCause slot s else furtherCause slot s

/-! ### The checks (R136, R137) -/

/-- The comparison of R58 gives a mismatch. -/
def Hoist.mismatch (h : Hoist) : Bool :=
  decide (h.settle = 0) &&
    match h.power, h.reported with
    | .standby, some .off => true
    | .standby, some .released => true
    | .run, some .off => true
    | .run, some .powered => true
    | _, _ => false

/-- The lower soft limit less the follow limit, and the upper soft limit plus it (R136). -/
def Hoist.lowerBound (h : Hoist) : Int := h.lowerLimit - h.followLimit

def Hoist.upperBound (h : Hoist) : Int := h.upperLimit + h.followLimit

/-- A measured position below the lower bound. R136 says that a negative one is below it whatever
the limits are, though signed arithmetic puts it within a negative bound: the model follows that
sentence (log entry 29). -/
def Hoist.passesLower (h : Hoist) (p : Int) : Bool := decide (p < 0 ∨ p < h.lowerBound)

/-- A measured position below the lower bound or above the upper one. -/
def Hoist.passesLimit (h : Hoist) (p : Int) : Bool := h.passesLower p || decide (h.upperBound < p)

/-- Whether a taken arrival finds a cause (R136); the last two causes have events of their own. -/
def Hoist.finds (h : Hoist) : HoistCause → Bool
  | .overload => decide (h.overloadThreshold < h.load.getD 0)
  | .slack => decide (h.power = .run ∧ h.slackThreshold ≠ 0 ∧ h.load.getD 0 < h.slackThreshold)
  | .follow => decide (h.power = .run ∧ h.followLimit < h.offset.natAbs)
  | .limitOverrun => h.passesLimit (h.measured.getD 0)
  | .driveFault => h.driveCode.isSome
  | .stateMismatch => h.mismatch
  | .statusLost => false
  | .confirmTimeout => false

/-- Values A and B of the record of a cause a taken arrival finds (R139). -/
def Hoist.checkValues (h : Hoist) : HoistCause → Word × Word
  | .overload => (unsignedWord (h.load.getD 0), unsignedWord h.overloadThreshold)
  | .slack => (unsignedWord (h.load.getD 0), unsignedWord h.slackThreshold)
  | .follow => (signedWord h.offset, unsignedWord h.followLimit)
  | .limitOverrun =>
    (signedWord (h.measured.getD 0),
      signedWord (if h.passesLower (h.measured.getD 0) then h.lowerBound else h.upperBound))
  | .driveFault => (unsignedWord (h.driveCode.getD 0), signedWord (h.measured.getD 0))
  | .stateMismatch =>
    (BitVec.ofNat 32 (Machine.driveCode (h.reported.getD .off)),
      BitVec.ofNat 32 (Machine.driveCode h.command))
  | .statusLost => (0, 0)
  | .confirmTimeout => (0, 0)

/-- The causes found that are not in the set yet, in the order of R136. -/
def Hoist.newCauses (h : Hoist) : List HoistCause :=
  allHoistCauses.filter fun c => h.finds c && !h.causes.has c

/-- A mismatch with a report of OFF takes the hoist to OFF, new or not (R137). -/
def offOnMismatch (slot : Slot) (s : State) : State :=
  s.updateHoist slot fun h =>
    if h.mismatch ∧ h.reported = some .off then h.fallToOff else h

/-- Steps 4 and 5 of a taken arrival in GUARD: the six checks and the effects of what they add.
`h` is the record as steps 1 to 3 left it. -/
def checkHoist (slot : Slot) (h : Hoist) (s : State) : State :=
  let added := forEach
    (fun c => addCause slot c (h.checkValues c).1 (h.checkValues c).2) h.newCauses s
  let settled := offOnMismatch slot added
  if h.newCauses.isEmpty then settled else causeEffects h.causes.isEmpty slot settled

/-! ### Taking an arrival (R135, R145) -/

/-- The reported drive state of status word 2; 3 names none (R173). -/
def reportedDrive (w : Word) : Option Drive :=
  match bitField w 1 0 with
  | 0 => some .off
  | 1 => some .powered
  | 2 => some .released
  | _ => none

/-- The frame stamp of status word 3. -/
def frameStamp (w : Word) : BitVec 16 := w.setWidth 16

/-- Step 1: the fields of a whole status record (R135, R173). -/
def Hoist.takeFields (h : Hoist) (words : Vector Word 4) (reported : Drive) : Hoist :=
  { h with
    measured := some words[0].toInt
    load := some (bitField words[1] 15 0)
    reported := some reported
    driveCode := if bitField words[2] 15 8 = 0 then none else some (bitField words[2] 15 8)
    stamp := some (frameStamp words[3])
    age := 0 }

/-- Step 2: the first sync (R47). -/
def Hoist.firstSync (h : Hoist) : Hoist := if h.synced then h else { h.syncTo with synced := true }

/-- Whether a hoist belongs to a group whose hold policy is RETRY. -/
def State.retryMember (s : State) (h : Hoist) : Bool :=
  match h.group with
  | none => false
  | some g => match s.group g with | none => false | some r => r.policy = .retry

/-- Step 3: STATUS_LOST clears itself for a member of a RETRY group (R142). -/
def selfClear (slot : Slot) (s : State) : State :=
  s.updateHoist slot fun h =>
    if s.retryMember h then { h with causes := h.causes.put .statusLost false } else h

/-- Step 6: a confirmation of a wake or of a brake release (R52, R54). -/
def confirmStep (slot : Slot) (s : State) : State :=
  match s.hoist slot with
  | none => s
  | some h =>
    if h.power = .waking ∧ h.delay = 0 ∧ h.reported = some .powered then
      tryRelease slot (s.updateHoist slot Hoist.wakeConfirmed)
    else if h.power = .releasing ∧ h.delay = 0 ∧ h.reported = some .released then
      s.updateHoist slot Hoist.releaseConfirmed
    else s

/-- Something to do for the group of a hoist, if it has one. -/
def withGroup (slot : Slot) (f : GroupNo → State → State) (s : State) : State :=
  match s.hoist slot with
  | none => s
  | some h => match h.group with | none => s | some g => f g s

/-- Step 8: the group returns where the self-clear emptied the set and it is still empty. -/
def returnAfterSelfClear (wasFaulted : Bool) (slot : Slot) (s : State) : State :=
  if wasFaulted && !s.faulted slot then withGroup slot returnIfQuiet s else s

/-- Steps 1 to 3, the same in GUARD and BYPASS. -/
def takeReport (slot : Slot) (words : Vector Word 4) (reported : Drive) (s : State) : State :=
  selfClear slot
    (s.updateHoist slot fun h => (h.takeFields words reported).firstSync)

/-- A taken arrival in GUARD (R135). -/
def takenInGuard (slot : Slot) (words : Vector Word 4) (reported : Drive) (s : State) : State :=
  let taken := takeReport slot words reported s
  match taken.hoist slot with
  | none => taken
  | some h =>
    returnAfterSelfClear (s.faulted slot) slot
      (withGroup slot spreadCheck (confirmStep slot (checkHoist slot h taken)))

/-- OVERLOAD found in BYPASS: the cause, its group, and the halt (R104, R105, R145). -/
def overloadInBypass (slot : Slot) (h : Hoist) (s : State) : State :=
  let (a, b) := h.checkValues .overload
  let added := addCause slot .overload a b s
  let grouped :=
    if h.causes.isEmpty then withGroup slot (fun g => memberFaulted g slot) added
    else if h.causes.overload then added
    else withGroup slot restartHeldRetry added
  haltCause .overloadBypass (some slot.val) a b grouped

/-- A taken arrival in BYPASS (R145). -/
def takenInBypass (slot : Slot) (words : Vector Word 4) (reported : Drive) (s : State) : State :=
  let taken := takeReport slot words reported s
  match taken.hoist slot with
  | none => taken
  | some h =>
    returnAfterSelfClear (s.faulted slot) slot
      (if h.finds .overload then overloadInBypass slot h taken else taken)

/-- A taken arrival, by the gate mode. -/
def takeArrival (slot : Slot) (words : Vector Word 4) (reported : Drive) (s : State) : State :=
  if s.loader.gate = .guard then takenInGuard slot words reported s
  else takenInBypass slot words reported s

/-! ### Capture and the decision of an arrival (R132 to R134) -/

/-- The captured status copy of a slot. -/
def State.statusCopy (s : State) (slot : Slot) : StatusCopy := s.port.status[slot]

/-- The state with a slot's status copy changed. -/
def State.updateStatus (s : State) (slot : Slot) (f : StatusCopy → StatusCopy) : State :=
  { s with port := { s.port with
      status := s.port.status.set slot.val (f (s.statusCopy slot)) slot.isLt } }

/-- The copy with the enabled bytes of a word merged in; words 0 to 2 are marked (R18, R132). -/
def StatusCopy.merge (c : StatusCopy) (word : Fin 4) (data : Word) (enables : ByteEnables) :
    StatusCopy where
  words := c.words.set word.val (mergeBytes c.words[word] data enables) word.isLt
  marks := c.marks.setIfInBounds word.val true

/-- The marks cleared, at the end of an arrival. -/
def StatusCopy.unmark (c : StatusCopy) : StatusCopy :=
  { c with marks := Vector.replicate 3 false }

/-- How many of words 0 to 2 are marked. -/
def StatusCopy.markCount (c : StatusCopy) : Nat := c.marks.toList.count true

/-- The arrival is refused: STATUS_INCOMPLETE (R134). -/
def refuseArrival (slot : Slot) (c : StatusCopy) (s : State) : State :=
  (s.count .arrivalsRefused).notice .statusIncomplete (some slot.val)
    ((frameStamp c.words[3]).setWidth 32) (BitVec.ofNat 32 c.markCount)

/-- The decision of an arrival by the slot's copy (R133). -/
def decideArrival (slot : Slot) (s : State) : State :=
  let c := s.statusCopy slot
  match s.hoist slot with
  | none => s
  | some h =>
    match reportedDrive c.words[2] with
    | none => refuseArrival slot c s
    | some reported =>
      if c.markCount < 3 then refuseArrival slot c s
      else if h.stamp = some (frameStamp c.words[3]) then s.count .arrivalsRefused
      else takeArrival slot c.words reported (s.count .arrivalsTaken)

/-- A drive link engine write to a status word (R132, R133). -/
def captureStatus (slot : Slot) (word : Fin 4) (data : Word) (enables : ByteEnables) (s : State) :
    State :=
  let merged := s.updateStatus slot (·.merge word data enables)
  if word = 3 then (decideArrival slot merged).updateStatus slot StatusCopy.unmark else merged

/-! ### The counts of one hoist at a FRAME arrival (R51, R60, R138) -/

/-- The settle counter (R51 step 1). -/
def settleCount (slot : Slot) (s : State) : State :=
  s.updateHoist slot fun h => { h with settle := h.settle - 1 }

/-- The fall of a step up that has failed (R55). -/
def Hoist.timeOut (h : Hoist) (confirmLimit : Nat) : Hoist :=
  match h.power with
  | .waking => h.fallToOff
  | .releasing =>
    if h.reported = some .off then h.fallToOff else h.fallToStandby confirmLimit
  | .off => h
  | .standby => h
  | .run => h

/-- The confirm counter reaches the confirm limit (R55). -/
def confirmTimedOut (slot : Slot) (s : State) : State :=
  match s.hoist slot with
  | none => s
  | some h =>
    let added := addCause slot .confirmTimeout (BitVec.ofNat 32 (powerCode h.power))
      (unsignedWord s.confirmFrames) s
    let fallen := added.updateHoist slot (·.timeOut s.confirmFrames)
    if h.causes.confirmTimeout then fallen else causeEffects h.causes.isEmpty slot fallen

/-- Whether a hoist is on its way up a rung. -/
def Hoist.climbing (h : Hoist) : Bool :=
  match h.power with
  | .waking => true
  | .releasing => true
  | .off => false
  | .standby => false
  | .run => false

/-- The delay or the confirm counter (R51 step 2). -/
def ladderCount (slot : Slot) (s : State) : State :=
  match s.hoist slot with
  | none => s
  | some h =>
    if h.climbing then
      if 0 < h.delay then s.updateHoist slot fun h => { h with delay := h.delay - 1 }
      else if h.confirm + 1 < s.confirmFrames then
        s.updateHoist slot fun h => { h with confirm := h.confirm + 1 }
      else confirmTimedOut slot s
    else s

/-- Frames since last step (R51 step 3). -/
def sinceCount (slot : Slot) (s : State) : State :=
  s.updateHoist slot fun h => { h with sinceStep := min (h.sinceStep + 1) 65535 }

/-- Whether a hoist parks (R60). -/
def State.mayPark (s : State) (slot : Slot) (h : Hoist) : Bool :=
  decide (h.power = .run) && decide (s.idlePark.getD 0 ≠ 0) &&
    decide (s.idlePark.getD 0 ≤ h.sinceStep) && h.goal.isNone && !s.linked (h.mover slot)

/-- The idle park test (R51 step 4; R60). -/
def parkTest (slot : Slot) (s : State) : State :=
  match s.hoist slot with
  | none => s
  | some h =>
    if s.mayPark slot h then s.updateHoist slot (·.fallToStandby s.confirmFrames) else s

/-- The status age passes the timeout (R138). -/
def statusTimedOut (slot : Slot) (h : Hoist) (s : State) : State :=
  if h.causes.statusLost then s
  else causeEffects h.causes.isEmpty slot
    (addCause slot .statusLost (unsignedWord h.age) (unsignedWord (s.statusTimeout.getD 0)) s)

/-- The status age (R138). -/
def ageCount (slot : Slot) (s : State) : State :=
  match s.hoist slot with
  | none => s
  | some h =>
    if h.age < s.statusTimeout.getD 0 then
      s.updateHoist slot fun h => { h with age := h.age + 1 }
    else statusTimedOut slot h s

/-- The counts of one hoist at a FRAME arrival in GUARD (R51, R138). -/
def hoistFrame (slot : Slot) (s : State) : State :=
  ageCount slot (parkTest slot (sinceCount slot (ladderCount slot (settleCount slot s))))

/-! ### Clearing a hoist (R143, R144) -/

/-- Whether CLEAR_FAULT removes a cause, by the hoist's latest values. -/
def Hoist.clears (h : Hoist) (statusTimeout : Nat) : HoistCause → Bool
  | .overload => match h.load with | none => true | some w => decide (w ≤ h.overloadThreshold)
  | .statusLost => decide (h.age < statusTimeout)
  | .driveFault => h.driveCode.isNone
  | .limitOverrun => match h.measured with | none => true | some p => !h.passesLimit p
  | .slack => true
  | .follow => true
  | .stateMismatch => true
  | .confirmTimeout => true

/-- The causes that CLEAR_FAULT leaves. -/
def Hoist.causesLeft (h : Hoist) (statusTimeout : Nat) : HoistCauses :=
  allHoistCauses.foldl (fun x c => if h.clears statusTimeout c then x.put c false else x) h.causes

/-- An accepted CLEAR_FAULT for a hoist (R144). -/
def clearHoist (slot : Slot) (s : State) : State :=
  match s.hoist slot with
  | none => s
  | some h =>
    let left := h.causesLeft (s.statusTimeout.getD 0)
    let cleared := s.updateHoist slot fun h => { h with causes := left }
    if left.isEmpty then
      (if h.causes.isEmpty then cleared else withGroup slot returnIfQuiet cleared).answer .done
        (BitVec.ofNat 32 h.causes.count)
    else cleared.answer .refusedFault (causesWord left)

/-- A CLEAR_FAULT request that the Status Monitor takes (R143). -/
def clearFaultHoistRequest (r : Request) (s : State) : State :=
  if subjectKind r.arguments[0] ≠ some .hoist then s.answer .badArgument 0
  else if !s.loader.gate.installed then s.answer .refusedMode 0
  else match s.hoistNamed r.arguments[1] with
    | none => s.answer .badArgument 0
    | some slot => clearHoist slot s

/-! ### Clearing a group (R108) -/

/-- An accepted CLEAR_FAULT for a group (R108). -/
def clearGroup (g : GroupNo) (s : State) : State :=
  match s.group g with
  | none => s
  | some r =>
    if r.state = .held then
      match r.members.find? s.faulted with
      | some slot => s.answer .refusedFault (BitVec.ofNat 32 slot.val)
      | none =>
        (s.updateGroup g TrussGroup.returnToIdle).answer .done (BitVec.ofNat 32 r.causes.count)
    else s.answer .done 0

/-- A CLEAR_FAULT request that the Group Table takes (R108). -/
def clearFaultGroupRequest (r : Request) (s : State) : State :=
  if !s.loader.gate.installed then s.answer .refusedMode 0
  else match s.groupNamed r.arguments[1] with
    | none => s.answer .badArgument 0
    | some g => clearGroup g s

end Sys2Proof.Machine
end

