-- ==== Sys2Proof/Machine/Pacer.lean ====
section
/-! DEFINITION. The Pacer: frames, rate counters, the service of the banks, steps and the pacing
batch (03 R59; 04 R81; 06 R97; 07 R112 to R120). -/

namespace Sys2Proof.Machine

/-! ### Movers at a service (R115, R116) -/

/-- An active goal different from the commanded position. -/
def Hoist.goalLeft (h : Hoist) : Bool :=
  match h.goal with
  | none => false
  | some g => decide ((g : Int) ≠ h.commanded)

/-- A present hoist with an active goal left to reach. -/
def State.goalLeftAt (s : State) (slot : Slot) : Bool :=
  match s.hoist slot with
  | none => false
  | some h => h.goalLeft

/-- Some hoist of a mover has an active goal left to reach. -/
def State.moverHasGoal (s : State) (m : Mover) : Bool := (s.moverSlots m).any s.goalLeftAt

/-- The needed direction (R116). -/
def Hoist.needed (h : Hoist) : Option Direction :=
  match h.goal with
  | none => none
  | some g =>
    if h.commanded < (g : Int) then some .up else if (g : Int) < h.commanded then some .down
    else none

/-- Reversal-delayed (R116). -/
def Hoist.reversalDelayed (h : Hoist) (dwell : Nat) : Bool :=
  decide (h.sinceStep < dwell) &&
    match h.needed, h.lastDirection with
    | some .up, some .down => true
    | some .down, some .up => true
    | _, _ => false

/-- A hoist that keeps its mover from being stepped: not in RUN, or reversal-delayed. -/
def State.blockedAt (s : State) (slot : Slot) : Bool :=
  match s.hoist slot with
  | none => true
  | some h => decide (h.power ≠ .run) || h.reversalDelayed (s.pacer.reversalDwell.getD 0)

/-- A mover that is passed over and keeps its place. -/
def State.blocked (s : State) (m : Mover) : Bool := (s.moverSlots m).any s.blockedAt

/-! ### Steps (R59, R81, R118) -/

/-- The distance from the commanded position to the active goal; 0 with no goal. -/
def Hoist.remaining (h : Hoist) : Nat :=
  match h.goal with
  | none => 0
  | some g => ((g : Int) - h.commanded).natAbs

/-- The largest remaining distance among a mover's hoists. -/
def State.moverRemaining (s : State) (m : Mover) : Nat :=
  (s.moverSlots m).foldl
    (fun n slot => match s.hoist slot with | none => n | some h => max n h.remaining) 0

/-- The hoist whose settings give a mover its step: its first, since members share them (R118). -/
def State.moverHoist (s : State) (m : Mover) : Option Hoist := (s.moverSlots m).head?.bind s.hoist

/-- The effective step for a remaining distance (R118). -/
def Hoist.effectiveStep (h : Hoist) (trim remaining : Nat) : Nat :=
  max 1 (h.step * trim * (if remaining ≤ h.approachBand then h.approachRatio else 8) / 64)

/-- The effective step of a mover. -/
def State.moverStep (s : State) (m : Mover) : Nat :=
  match s.moverHoist m with
  | none => 0
  | some h => h.effectiveStep s.pacer.trim (s.moverRemaining m)

/-- A step of distance `d` toward the active goal; a goal reached is removed (R59, R81). -/
def Hoist.stepBy (h : Hoist) (d : Nat) : Hoist :=
  match h.goal with
  | none => h
  | some g =>
    let up := decide (h.commanded < (g : Int))
    let position : Int := if up then h.commanded + d else h.commanded - d
    { h with
      commanded := position
      lastDirection := if d = 0 then h.lastDirection else some (if up then .up else .down)
      sinceStep := if d = 0 then h.sinceStep else 0
      goal := if position = (g : Int) then none else some g }

/-- One PACE record: the hoist moves by the step, or by its remaining distance if that is less. -/
def paceHoist (queue : QueueNo) (step : Nat) (slot : Slot) (s : State) :
    List SetpointRecord × State :=
  match s.hoist slot with
  | none => ([], s)
  | some h =>
    let d := min step h.remaining
    let (record, composed) := composeRecord .pace d slot (s.updateHoist slot (·.stepBy d))
    (record.toList, composed.count (.paceReleased queue))

/-- One PACE record for each of some hoists, in order. -/
def paceHoists (queue : QueueNo) (step : Nat) : List Slot → State → List SetpointRecord × State
  | [], s => ([], s)
  | slot :: rest, s =>
    let (r, s1) := paceHoist queue step slot s
    let (rs, s2) := paceHoists queue step rest s1
    (r ++ rs, s2)

/-! ### Walks (R115, R117) -/

/-- The service of one frame so far. -/
structure Service where
  state : State
  budget : Nat
  records : List SetpointRecord
  /-- The frame's service has ended before a mover that does not fit. -/
  ended : Bool

/-- A walk of one queue so far: the movers marked for unlinking, and the mover it ended before. -/
structure Walk where
  service : Service
  marked : List Mover
  stop : Option Mover

/-- Step a mover at a walk: its records, its share of the budget, its mark. -/
def stepMover (queue : QueueNo) (m : Mover) (w : Walk) : Walk :=
  let s := w.service.state
  let (records, stepped) := paceHoists queue (s.moverStep m) (s.moverSlots m) s
  { w with
    service := { w.service with
      state := stepped
      budget := w.service.budget - (s.moverSlots m).length
      records := w.service.records ++ records }
    marked := if stepped.moverHasGoal m then w.marked else w.marked ++ [m] }

/-- The walk of a queue's movers from its start toward the tail (R115). -/
def walk (queue : QueueNo) : List Mover → Walk → Walk
  | [], w => w
  | m :: rest, w =>
    if !w.service.state.moverHasGoal m then walk queue rest { w with marked := w.marked ++ [m] }
    else if w.service.state.blocked m then walk queue rest w
    else if w.service.budget < (w.service.state.moverSlots m).length then { w with stop := some m }
    else walk queue rest (stepMover queue m w)

/-- The movers a walk goes through: from the resume point, or from the head (R115, R119). -/
def PacingQueue.walkFrom (q : PacingQueue) : List Mover :=
  match q.resume with
  | none => q.movers
  | some .tail => []
  | some (.mover m) => q.movers.dropWhile (· ≠ m)

/-! ### The banks (R114) -/

inductive Bank
  | a
  | b
  deriving DecidableEq, Repr

/-- A queue of a bank by its place in it. -/
def Bank.queue : Bank → Fin 4 → QueueNo
  | .a, i => ⟨i.val, by omega⟩
  | .b, i => ⟨4 + i.val, by omega⟩

/-- A bank's next start. -/
def Pacer.nextStart (p : Pacer) : Bank → Fin 4
  | .a => p.nextStartA
  | .b => p.nextStartB

/-- The state with a bank's next start set. -/
def setNextStart (bank : Bank) (i : Fin 4) (s : State) : State :=
  match bank with
  | .a => { s with pacer := { s.pacer with nextStartA := i } }
  | .b => { s with pacer := { s.pacer with nextStartB := i } }

/-- A queue served fully (R114). -/
def grantService (bank : Bank) (i : Fin 4) (s : State) : State :=
  setNextStart bank (i + 1)
    ((s.updateQueue (bank.queue i) fun q => { q with due := false, resume := none }).count
      (.servicesGranted (bank.queue i)))

/-- The end of a walk, at the tail or before a mover that does not fit (R114, R115, R117). -/
def endWalk (bank : Bank) (i : Fin 4) (w : Walk) : Service :=
  match w.stop with
  | none =>
    { w.service with state := forEach unlinkMover w.marked (grantService bank i w.service.state) }
  | some m =>
    { w.service with
      state := forEach unlinkMover w.marked
        (w.service.state.updateQueue (bank.queue i) fun q => { q with resume := some (.mover m) })
      ended := true }

/-- Serve one queue, if its pending flag is set and the frame's service has not ended. -/
def serveQueue (bank : Bank) (v : Service) (i : Fin 4) : Service :=
  let q := v.state.queue (bank.queue i)
  if v.ended || !q.due then v
  else endWalk bank i (walk (bank.queue i) q.walkFrom ⟨v, [], none⟩)

/-- The four places of a bank in round-robin order. -/
def roundRobin (start : Fin 4) : List (Fin 4) := [start, start + 1, start + 2, start + 3]

/-- Serve a bank: the queue with a resume point first, then round robin (R114). -/
def serveBank (bank : Bank) (v : Service) : Service :=
  let holder := (List.finRange 4).find? fun i => (v.state.queue (bank.queue i)).resume.isSome
  let first := match holder with | none => v | some i => serveQueue bank v i
  (roundRobin (first.state.pacer.nextStart bank)).foldl (serveQueue bank) first

/-! ### Taking a frame (R112, R113, R120) -/

/-- A queue's rate counter at a frame taken (R113). -/
def raiseRate (queue : QueueNo) (s : State) : State :=
  let q := s.queue queue
  let sum := q.rate + q.increment.getD 0
  if sum < 256 then s.updateQueue queue fun q => { q with rate := sum }
  else
    let raised := s.updateQueue queue fun q => { q with rate := sum - 256, due := true }
    if q.due then raised.count (.servicesMissed queue) else raised

/-- One budget exhaustion for a frame that leaves a queue pending (R117). -/
def noteExhaustion (s : State) : State :=
  if s.pacer.queues.any (·.due) then s.count .budgetExhaustions else s

/-- The hoists that take a state-kind record in the pacing batch: command dirty or sync due, and no
PACE record in it (R48, R120). -/
def State.stateSlots (s : State) (paced : List SetpointRecord) : List Slot :=
  s.presentSlots.filter fun slot =>
    (match s.hoist slot with | none => false | some h => h.commandDirty || h.syncDue) &&
      !(paced.any fun r => r.slot = slot)

/-- The pacing batch of a frame (R120). -/
def pacingBatch (paced : List SetpointRecord) (s : State) : State :=
  let (states, composed) := composeRecords .state (s.stateSlots paced) s
  if (paced ++ states).isEmpty then composed
  else
    let (b, numbered) := numberBatch (paced ++ states) composed
    handBatch b numbered

/-- The service of a frame: both banks, from the whole budget. -/
def serveFrame (s : State) : Service :=
  serveBank .b (serveBank .a ⟨s, s.pacer.budget.getD 0, [], false⟩)

/-- Take a frame: raise the rate counters, serve the banks, compose the pacing batch (R112). -/
def takeFrame (s : State) : State :=
  let served := serveFrame (forEach raiseRate allQueues s)
  pacingBatch served.records (noteExhaustion served.state)

/-- Set or discard the pending frame. -/
def setPendingFrame (b : Bool) (s : State) : State :=
  { s with pacer := { s.pacer with pendingFrame := b } }

/-- The pending frame is taken when the writer is IDLE (R112). -/
def takePending (s : State) : State :=
  if s.pacer.pendingFrame ∧ s.writer.state = .idle then takeFrame (setPendingFrame false s) else s

/-- A FRAME arrival offered to the Pacer in GUARD (R112, R129). -/
def offerFrame (s : State) : State :=
  if s.pacer.frozen then s
  else match s.writer.state with
    | .idle => takeFrame (setPendingFrame false s)
    | .starting =>
      if s.pacer.pendingFrame then s.count .frameOverruns else setPendingFrame true s
    | .writing =>
      if s.pacer.pendingFrame then s.count .frameOverruns else setPendingFrame true s

end Sys2Proof.Machine
end

