-- ==== Sys2Proof/Machine/Goals.lean ====
section
/-! DEFINITION. Goal Intake and the Grid Mapper: goal writes, the staging list, GO, WITHDRAW and
the way from a show cell to a slot (04, R66 to R85; 05, R86 to R93). -/

namespace Sys2Proof.Machine

/-! ### Active goals (R73, R77) -/

/-- A goal becomes a hoist's active goal. Reached already, it is removed at once; otherwise its
mover is linked, or an ungrouped hoist whose mover is linked takes run demand. -/
def setActiveGoal (slot : Slot) (goal : Nat) (s : State) : State :=
  match s.hoist slot with
  | none => s
  | some h =>
    if (goal : Int) = h.commanded then removeGoal slot s
    else
      let set := s.updateHoist slot fun h => { h with goal := some goal }
      if s.linked (h.mover slot) then
        match h.group with
        | none => setRunDemand slot set
        | some _ => set
      else linkMover (h.mover slot) set

/-! ### Refusals and tests (R68, R70 to R72, R76) -/

/-- A goal refused with a notice; the counter of goals refused is raised (R71, R72). -/
def refuseGoal (code : NoticeCode) (slot : Slot) (goal b : Word) (s : State) : State :=
  (s.count .goalsRefused).notice code (some slot.val) goal b

/-- Every hoist of a hoist's mover is synced: the hoist itself, or its whole group. -/
def State.moverSynced (s : State) (slot : Slot) (h : Hoist) : Bool :=
  s.syncedAt slot && (s.moverSlots (h.mover slot)).all s.syncedAt

/-- The tests on a hoist that a DIRECT goal and a GO entry share: the notice of the first that
fails (R70 steps 7 to 9; R76). -/
def State.goalObstacle (s : State) (slot : Slot) (h : Hoist) : Option NoticeCode :=
  if !h.causes.isEmpty then some .goalNotReady
  else if (match h.group with | none => false | some g => s.groupHeld g) then some .goalHeld
  else if !s.moverSynced slot h then some .goalNoStatus
  else none

/-- The tests of a DIRECT goal (R70). -/
def State.directObstacle (s : State) (slot : Slot) (h : Hoist) : Option NoticeCode :=
  if s.loader.gate ≠ .guard then some .goalNotReady
  else if s.halt.latched then some .goalHalted
  else s.goalObstacle slot h

/-! ### The staging list (R69) -/

/-- The staging list with a goal for a slot: replaced in place, or a new entry at the tail. -/
def stageIn (slot : Slot) (goal : Nat) (arrival : Word) : List StagingEntry → List StagingEntry
  | [] => [⟨slot, goal, arrival⟩]
  | e :: rest =>
    if e.slot = slot then { e with goal := goal } :: rest
    else e :: stageIn slot goal arrival rest

/-- A goal is staged (R69). -/
def stageGoal (slot : Slot) (goal : Nat) (s : State) : State :=
  { s with goals := { s.goals with
      staging := stageIn slot goal s.report.frameCount s.goals.staging } }

/-- The staging entry of a slot is removed (R70). -/
def unstage (slot : Slot) (s : State) : State :=
  { s with goals := { s.goals with staging := s.goals.staging.filter fun e => e.slot ≠ slot } }

/-- The staging list is emptied. -/
def emptyStaging (s : State) : State := { s with goals := { s.goals with staging := [] } }

/-! ### Goal writes (R67 to R71) -/

/-- A goal that has passed the checks at the write (R69, R70). -/
def acceptGoal (slot : Slot) (h : Hoist) (goal : Word) (addr : Addr) (s : State) : State :=
  match s.goals.mode with
  | .cued => stageGoal slot goal.toNat s
  | .direct =>
    match s.directObstacle slot h with
    | some code => refuseGoal code slot goal (addr.setWidth 32) s
    | none => setActiveGoal slot goal.toNat (unstage slot s)

/-- A goal received by Goal Intake: slot, goal word and the word address of the write (R68). -/
def takeGoal (slot : Slot) (goal : Word) (addr : Addr) (s : State) : State :=
  if s.goals.keepCode = some goal then s
  else match s.hoist slot with
    | none => refuseGoal .goalAbsent slot goal (addr.setWidth 32) s
    | some h =>
      if goal.toNat < h.lowerLimit then
        refuseGoal .goalLimit slot goal (unsignedWord h.lowerLimit) s
      else if h.upperLimit < goal.toNat then
        refuseGoal .goalLimit slot goal (unsignedWord h.upperLimit) s
      else acceptGoal slot h goal addr (s.count .goalsAccepted)

/-! ### The grid window (R87 to R89) -/

/-- Venue columns: the show rows when the rotation is a quarter turn. -/
def GridSettings.venueColumns (g : GridSettings) : Nat :=
  match g.rotation with
  | .none0 => g.columns
  | .quarter90 => g.rows
  | .half180 => g.columns
  | .threeQuarter270 => g.rows

/-- The venue cell of a show cell: mirror, then rotation (R88). -/
def GridSettings.venueCell (g : GridSettings) (r c : Nat) : Nat × Nat :=
  let c' := if g.mirror then g.columns - 1 - c else c
  match g.rotation with
  | .none0 => (r, c')
  | .quarter90 => (c', g.rows - 1 - r)
  | .half180 => (g.rows - 1 - r, g.columns - 1 - c')
  | .threeQuarter270 => (g.columns - 1 - c', r)

/-- The venue map index of an offset in the grid window (R87 to R89). -/
def GridSettings.venueIndex (g : GridSettings) (o : Nat) : Nat :=
  let (vr, vc) := g.venueCell (o / g.columns) (o % g.columns)
  vr * g.venueColumns + vc

/-- The slot an offset in the grid window names; none for an EMPTY cell. -/
def GridSettings.slotAt (g : GridSettings) (o : Nat) : Option Slot :=
  (g.venue[g.venueIndex o]?).join

/-- A captured grid write (R89). -/
def takeGridWrite (o : Nat) (goal : Word) (addr : Addr) (s : State) : State :=
  match s.grid with
  | none => s
  | some g =>
    match g.slotAt o with
    | some slot => takeGoal slot goal addr s
    | none =>
      if s.goals.keepCode = some goal then s
      else (s.count .goalsRefused).notice .gridEmptyCell none goal (addr.setWidth 32)

/-! ### GO (R75, R76) -/

/-- One staging entry at GO, with how many entries have been promoted (R76). -/
def promote (e : StagingEntry) (n : Nat) (s : State) : Nat × State :=
  match s.hoist e.slot with
  | none => (n, refuseGoal .goalAbsent e.slot (BitVec.ofNat 32 e.goal) e.arrival s)
  | some h =>
    match s.goalObstacle e.slot h with
    | some code => (n, refuseGoal code e.slot (BitVec.ofNat 32 e.goal) e.arrival s)
    | none => (n + 1, setActiveGoal e.slot e.goal s)

/-- The staging entries in list order. -/
def promoteAll : List StagingEntry → Nat → State → Nat × State
  | [], n, s => (n, s)
  | e :: rest, n, s =>
    let (n', s') := promote e n s
    promoteAll rest n' s'

/-- A GO request (R75, R76). -/
def goRequest (_ : Request) (s : State) : State :=
  if s.loader.gate ≠ .guard then s.answer .refusedMode 0
  else if s.halt.latched then s.answer .refusedHalt 0
  else
    let (n, promoted) := promoteAll s.goals.staging 0 s
    (emptyStaging promoted).answer .done (BitVec.ofNat 32 n)

/-! ### SET_GOAL_MODE, CLEAR_STAGE, WITHDRAW (R74, R79, R80) -/

/-- A SET_GOAL_MODE request (R74). LOADING, where the rule says none can come, is refused. -/
def setGoalModeRequest (r : Request) (s : State) : State :=
  match goalModeOf r.arguments[0] with
  | none => s.answer .badArgument 0
  | some mode =>
    if s.loader.gate.installed then
      State.answer { s with goals := { s.goals with mode := mode } } .done
        (BitVec.ofNat 32 s.goals.staging.length)
    else s.answer .refusedMode 0

/-- A CLEAR_STAGE request (R79). LOADING, where the rule says none can come, is refused. -/
def clearStageRequest (_ : Request) (s : State) : State :=
  if s.loader.gate = .loading then s.answer .refusedMode 0
  else (emptyStaging s).answer .done (BitVec.ofNat 32 s.goals.staging.length)

/-- The hoists a WITHDRAW acts on (R80). -/
def State.withdrawSlots (s : State) : Subject → List Slot
  | .hoist slot =>
    match s.hoist slot with
    | none => []
    | some h => s.moverSlots (h.mover slot)
  | .group g => s.members g
  | .all => s.presentSlots

/-- The movers a WITHDRAW unlinks. -/
def State.withdrawMovers (s : State) : Subject → List Mover
  | .hoist slot => match s.hoist slot with | none => [] | some h => [h.mover slot]
  | .group g => [.group g]
  | .all => s.linkedMovers

/-- An accepted WITHDRAW (R80). -/
def withdrawSubject (x : Subject) (s : State) : State :=
  let n := s.goalCount (s.withdrawSlots x)
  (forEach unlinkMover (s.withdrawMovers x)
    (forEach removeGoal (s.withdrawSlots x) s)).answer .done (BitVec.ofNat 32 n)

/-- A WITHDRAW request (R80). -/
def withdrawRequest (r : Request) (s : State) : State :=
  match subjectKind r.arguments[0] with
  | none => s.answer .badArgument 0
  | some kind =>
    if s.loader.gate ≠ .guard then s.answer .refusedMode 0
    else match s.subjectNamed kind r.arguments[1] with
      | none => s.answer .badArgument 0
      | some x => withdrawSubject x s

/-! ### POWER (03 R64, R65) -/

/-- The hoists of a POWER subject, in the order taken. -/
def State.subjectSlots (s : State) : Subject → List Slot
  | .hoist slot => [slot]
  | .group g => s.members g
  | .all => s.presentSlots

/-- Whether a level RUN passes a hoist over: faulted, its group HELD, or not synced. -/
def State.passedOver (s : State) (h : Hoist) : Bool :=
  !h.causes.isEmpty || (match h.group with | none => false | some g => s.groupHeld g) || !h.synced

/-- A level applied to one hoist: whether it is counted, and the state (R65). -/
def powerHoist (level : PowerLevel) (slot : Slot) (s : State) : Bool × State :=
  match s.hoist slot with
  | none => (false, s)
  | some h =>
    match level with
    | .off =>
      if h.power = .off then (false, s) else (true, s.updateHoist slot Hoist.fallToOff)
    | .standby =>
      match h.power with
      | .off => (true, s.updateHoist slot fun h => { h.wake with runDemand := false })
      | .waking => (h.runDemand, clearRunDemand slot s)
      | .standby => (h.runDemand, clearRunDemand slot s)
      | .releasing => (true, s.updateHoist slot (·.fallToStandby s.confirmFrames))
      | .run => (true, s.updateHoist slot (·.fallToStandby s.confirmFrames))
    | .run =>
      if h.power = .run ∨ s.passedOver h then (false, s)
      else (!h.runDemand, setRunDemand slot s)

/-- A level applied to hoists in turn, with how many have been counted. -/
def powerHoists (level : PowerLevel) : List Slot → Nat → State → Nat × State
  | [], n, s => (n, s)
  | slot :: rest, n, s =>
    let (counted, s') := powerHoist level slot s
    powerHoists level rest (n + counted.toNat) s'

/-- The linked movers that hold a hoist of a subject. -/
def State.subjectMovers (s : State) (slots : List Slot) : List Mover :=
  s.linkedMovers.filter fun m => (s.moverSlots m).any (· ∈ slots)

/-- An accepted POWER (R65). -/
def applyPower (level : PowerLevel) (slots : List Slot) (s : State) : State :=
  let ready := match level with
    | .run => s
    | .off => forEach withdrawMover (s.subjectMovers slots) s
    | .standby => forEach withdrawMover (s.subjectMovers slots) s
  let (n, powered) := powerHoists level slots 0 ready
  powered.answer .done (BitVec.ofNat 32 n)

/-- A POWER request (R64). -/
def powerRequest (r : Request) (s : State) : State :=
  match subjectKind r.arguments[0], powerLevel r.arguments[2] with
  | some kind, some level =>
    if s.loader.gate ≠ .guard then s.answer .refusedMode 0
    else match s.subjectNamed kind r.arguments[1] with
      | none => s.answer .badArgument 0
      | some x =>
        if level = .run ∧ s.halt.latched then s.answer .refusedHalt 0
        else applyPower level (s.subjectSlots x) s
  | _, _ => s.answer .badArgument 0

end Sys2Proof.Machine
end

