-- ==== Sys2Proof/Machine/Lock.lean ====
section
/-! DEFINITION. The Rig Lock: the password at a load, the captured key words, UNLOCK and LOCK
(10, R159 to R163). -/

namespace Sys2Proof.Machine

/-- The lock state a password gives (R160). -/
def lockStateOf (password : Vector Word 4) : LockState :=
  if password = Vector.replicate 4 0xFFFFFFFF then .opened
  else if password = Vector.replicate 4 0 then .permanent
  else .closed

/-- The password installed at a successful load (R160); the key words are kept. -/
def installPassword (password : Vector Word 4) (l : RigLock) : RigLock :=
  { l with state := lockStateOf password, password := some password }

/-- The lock at a teardown: no password, the key words kept (R159). -/
def RigLock.clear (l : RigLock) : RigLock := { l with state := .noPassword, password := none }

/-- A processor write to key word n (R161). -/
def captureKey (n : Fin 4) (data : Word) (enables : ByteEnables) (s : State) : State :=
  { s with lock := { s.lock with
      keys := s.lock.keys.set n.val (mergeBytes s.lock.keys[n] data enables) n.isLt } }

/-- Whether the captured key words equal the installed password, each as a whole word. -/
def RigLock.keyFits (l : RigLock) : Bool := decide (l.password = some l.keys)

/-- The key words cleared by every UNLOCK. -/
def RigLock.clearKeys (l : RigLock) : RigLock := { l with keys := Vector.replicate 4 0 }

/-- The lock with its key words cleared and a state. -/
def setLock (x : LockState) (s : State) : State :=
  { s with lock := { s.lock.clearKeys with state := x } }

/-- An UNLOCK request (R162). -/
def unlockRequest (_ : Request) (s : State) : State :=
  match s.lock.state with
  | .noPassword => (setLock .noPassword s).answer .refusedLock 0
  | .permanent => (setLock .permanent s).answer .refusedLock 0
  | .closed =>
    if s.lock.keyFits then (setLock .opened s).answer .done 0
    else (setLock .closed s).answer .keyMismatch 0
  | .opened =>
    if s.lock.keyFits then (setLock .opened s).answer .done 0
    else (setLock .opened s).answer .keyMismatch 0

/-- A LOCK request (R163). -/
def lockRequest (_ : Request) (s : State) : State :=
  match s.lock.state with
  | .noPassword => s.answer .refusedLock 0
  | .permanent => s.answer .refusedLock 0
  | .closed => s.answer .done 0
  | .opened => State.answer { s with lock := { s.lock with state := .closed } } .done 0

end Sys2Proof.Machine
end

