-- ==== Sys2Proof/Machine/Validation.lean ====
section
/-! DEFINITION. The configuration block as the Rig Loader reads it, and the sixteen steps of
validation (02, R22 to R27, R32 to R36; 11 R173, "Configuration block"). -/

namespace Sys2Proof.Machine

/-! ### The layout of the block -/

/-- Word n of a section or an entry. -/
def wordAt (ws : List Word) (n : Nat) : Word := ws.getD n 0

/-- A group entry (R26). `positions` are the eight member positions as they stand. -/
structure GroupEntry where
  words : List Word
  inUse : Bool
  count : Nat
  positions : List Nat
  queue : Nat
  retries : Bool
  tolerance : Nat
  retryHold : Nat
  echo : Nat

/-- A hoist entry (R27). -/
structure HoistEntry where
  words : List Word
  present : Bool
  group : Nat
  queue : Nat
  ratio : Nat
  step : Nat
  lower : Nat
  upper : Nat
  overload : Nat
  slack : Nat
  follow : Nat
  band : Nat
  wake : Nat
  brake : Nat
  echo : Nat

/-- A word's four bytes as numbers, byte lane 0 first. -/
def bytesOf (w : Word) : List Nat :=
  [bitField w 7 0, bitField w 15 8, bitField w 23 16, bitField w 31 24]

/-- A group entry from its eight words (R173). -/
def groupEntry (ws : List Word) : GroupEntry where
  words := ws
  inUse := (wordAt ws 0).getLsbD 0
  count := bitField (wordAt ws 0) 11 8
  positions := bytesOf (wordAt ws 1) ++ bytesOf (wordAt ws 2)
  queue := bitField (wordAt ws 0) 18 16
  retries := (wordAt ws 0).getLsbD 24
  tolerance := bitField (wordAt ws 3) 15 0
  retryHold := bitField (wordAt ws 4) 7 0
  echo := (wordAt ws 7).toNat

/-- A hoist entry from its eight words (R173). -/
def hoistEntry (ws : List Word) : HoistEntry where
  words := ws
  present := (wordAt ws 0).getLsbD 0
  group := bitField (wordAt ws 0) 15 8
  queue := bitField (wordAt ws 0) 18 16
  ratio := bitField (wordAt ws 0) 23 20
  step := bitField (wordAt ws 0) 31 24
  lower := (wordAt ws 1).toNat
  upper := (wordAt ws 2).toNat
  overload := bitField (wordAt ws 3) 15 0
  slack := bitField (wordAt ws 3) 31 16
  follow := bitField (wordAt ws 4) 15 0
  band := bitField (wordAt ws 4) 31 16
  wake := bitField (wordAt ws 5) 8 0
  brake := bitField (wordAt ws 5) 24 16
  echo := (wordAt ws 7).toNat

/-- The members a group entry lists: the positions within its count. -/
def GroupEntry.members (e : GroupEntry) : List Nat := e.positions.take e.count

/-- The configuration block by its sections (2.1). -/
structure RigBlock where
  all : List Word
  header : List Word
  queues : List Word
  regions : List Word
  grid : List Word
  password : List Word
  groups : List GroupEntry
  hoists : List HoistEntry

/-- Cut words into entries of eight. -/
def entriesOf : Nat → List Word → List (List Word)
  | 0, _ => []
  | n + 1, ws => ws.take 8 :: entriesOf n (ws.drop 8)

/-- The block from the candidate. -/
def rigBlock (ws : List Word) : RigBlock where
  all := ws
  header := ws.take 16
  queues := (ws.drop 0x10).take 8
  regions := (ws.drop 0x18).take 24
  grid := (ws.drop 0x30).take 68
  password := (ws.drop 0x74).take 12
  groups := (entriesOf 32 (ws.drop 0x80)).map groupEntry
  hoists := (entriesOf 128 (ws.drop 0x180)).map hoistEntry

/-- Word n of the header as a number. -/
def RigBlock.setting (b : RigBlock) (n : Nat) : Nat := (wordAt b.header n).toNat

/-- Word n of the region map as a number. -/
def RigBlock.regionWord (b : RigBlock) (n : Nat) : Nat := (wordAt b.regions n).toNat

def RigBlock.showRows (b : RigBlock) : Nat := (wordAt b.grid 0).toNat

def RigBlock.showColumns (b : RigBlock) : Nat := (wordAt b.grid 1).toNat

/-- The bytes of the venue map, 256 of them. -/
def RigBlock.venueBytes (b : RigBlock) : List Nat := (b.grid.drop 4).flatMap bytesOf

/-- The venue cells: the first venue rows × venue columns bytes, the same number in every
rotation (R25). -/
def RigBlock.venueCells (b : RigBlock) : List Nat :=
  b.venueBytes.take (b.showRows * b.showColumns)

/-- The hoist entry of a slot number, if it names one. -/
def RigBlock.hoistAt (b : RigBlock) (n : Nat) : Option HoistEntry := b.hoists[n]?

/-- Whether a number names a present hoist. -/
def RigBlock.presentAt (b : RigBlock) (n : Nat) : Bool :=
  match b.hoistAt n with
  | none => false
  | some h => h.present

/-- The entries of a list with their indices. -/
def indexed {α : Type} (xs : List α) : List (Nat × α) := (List.range xs.length).zip xs

/-- The in-use groups in number order. -/
def RigBlock.usedGroups (b : RigBlock) : List (Nat × GroupEntry) :=
  (indexed b.groups).filter fun p => p.2.inUse

/-- The present hoists in slot order. -/
def RigBlock.presentHoists (b : RigBlock) : List (Nat × HoistEntry) :=
  (indexed b.hoists).filter fun p => p.2.present

/-- The detail of the first of some numbered things that fails. -/
def firstFailure {α : Type} (part : BlockSection) (fails : α → Bool) (xs : List (Nat × α)) :
    Option LoadDetail :=
  (xs.find? fun p => fails p.2).map fun p => ⟨part, p.1⟩

/-- A number within a range, both ends included. -/
def within (lo hi n : Nat) : Bool := lo ≤ n && n ≤ hi

/-! ### Steps 1 to 4 (R32, R33) -/

def checkMagic (b : RigBlock) : Option LoadDetail :=
  if b.setting 0 = 0x52494731 then none else some ⟨.header, 0⟩

/-- The sum of all words, carries beyond 32 bits discarded. -/
def wordSum (ws : List Word) : Word := ws.foldl (· + ·) 0

def checkChecksum (b : RigBlock) : Option LoadDetail :=
  if wordSum b.all = 0 then none else some ⟨.header, 1⟩

/-- Whether header word n is outside its range at step 3: magic, checksum and the release budget
belong to other steps; words 12 to 15 must be zero (R22, R33). -/
def headerBad (n v : Nat) : Bool :=
  match n with
  | 0 => false
  | 1 => false
  | 2 => false
  | 3 => !within 400001 4294967295 v
  | 4 => !within 0 1 v
  | 5 => !within 1 8 v
  | 6 => !within 1 255 v
  | 7 => !within 1 255 v
  | 8 => !within 0 65535 v
  | 9 => !within 0 255 v
  | 10 => !within 1 15 v
  | 11 => !within 0 15 v
  | _ => v ≠ 0

def headerFormat (b : RigBlock) : Option LoadDetail :=
  ((List.range 16).find? fun n => headerBad n (b.setting n)).map fun n => ⟨.header, n⟩

def queueFormat (b : RigBlock) : Option LoadDetail :=
  firstFailure .queues (fun w => !within 0 256 w.toNat) (indexed b.queues)

/-- User region i: base, length, attributes. -/
def RigBlock.userRegion (b : RigBlock) (i : Nat) : Nat × Nat × Nat :=
  (b.regionWord (6 + 3 * i), b.regionWord (7 + 3 * i), b.regionWord (8 + 3 * i))

/-- A user region fails step 3: its length, its attributes, or a base or attribute of a region not
in use (R24, R33). -/
def userBad (base length attributes : Nat) : Bool :=
  !within 0 65536 length || !within 0 3 attributes ||
    (decide (length = 0) && (decide (base ≠ 0) || decide (attributes ≠ 0)))

def regionFormat (b : RigBlock) : Option LoadDetail :=
  match (List.range 4).find? fun i =>
      let (base, length, attributes) := b.userRegion i
      userBad base length attributes with
  | some i => some ⟨.regions, 5 + i⟩
  | none =>
    if (List.range 6).any fun n => b.regionWord (18 + n) ≠ 0 then some ⟨.regions, 9⟩ else none

/-- Rotation and mirror are tested here, then each byte of the venue map (R25, R33). -/
def gridFormat (b : RigBlock) : Option LoadDetail :=
  if (wordAt b.grid 2).toNat ∉ [0, 90, 180, 270] ∨ 1 < (wordAt b.grid 3).toNat then
    some ⟨.grid, 256⟩
  else firstFailure .grid (fun v => 127 < v && v ≠ 255) (indexed b.venueBytes)

def passwordFormat (b : RigBlock) : Option LoadDetail :=
  ((List.range 12).find? fun n => 4 ≤ n && wordAt b.password n ≠ 0).map fun n => ⟨.password, n⟩

/-- Bits outside a mask. -/
def strayBits (w mask : Word) : Bool := w &&& ~~~mask ≠ 0

/-- A group entry fails step 3 (R26, R33): what steps 4, 10 and 11 test is left to them. -/
def groupBad (e : GroupEntry) : Bool :=
  if e.inUse then
    strayBits (wordAt e.words 0) 0x01070F01 ||
      !within 1 65535 (wordAt e.words 3).toNat || !within 1 255 (wordAt e.words 4).toNat ||
      wordAt e.words 5 ≠ 0 || wordAt e.words 6 ≠ 0
  else (List.range 7).any fun n => wordAt e.words n ≠ 0

/-- A hoist entry fails step 3 (R27, R33). -/
def hoistBad (e : HoistEntry) : Bool :=
  if e.present then
    strayBits (wordAt e.words 0) 0xFFF7FF01 ||
      (31 < e.group && e.group ≠ 255) || !within 1 8 e.ratio || e.step = 0 ||
      400000 < e.lower || 400000 < e.upper || e.overload = 0 || e.overload ≤ e.slack ||
      e.follow = 0 || strayBits (wordAt e.words 5) 0x01FF01FF || wordAt e.words 6 ≠ 0
  else (List.range 7).any fun n => wordAt e.words n ≠ 0

/-- Step 3, in rising word offset (R33). -/
def checkFormat (b : RigBlock) : Option LoadDetail :=
  headerFormat b <|> queueFormat b <|> regionFormat b <|> gridFormat b <|> passwordFormat b <|>
    firstFailure .groups groupBad (indexed b.groups) <|>
    firstFailure .hoists hoistBad (indexed b.hoists)

/-- Step 4: group echoes, then slot echoes (R33). -/
def checkMisplaced (b : RigBlock) : Option LoadDetail :=
  firstFailure .groups (fun p => p.2.echo ≠ p.1) (indexed (indexed b.groups)) <|>
    firstFailure .hoists (fun p => p.2.echo ≠ p.1) (indexed (indexed b.hoists))

/-! ### Steps 5 to 7 (R34) -/

/-- The regions as written, by entry: base and length (R24, R34). -/
def RigBlock.regionList (b : RigBlock) : List (Nat × Nat × Nat) :=
  [(0, b.regionWord 0, 512), (1, b.regionWord 1, 512),
    (2, b.regionWord 2, b.showRows * b.showColumns), (3, b.regionWord 3, 4 * b.regionWord 4),
    (4, b.regionWord 5, 64)] ++
    (List.range 4).map fun i => (5 + i, (b.userRegion i).1, (b.userRegion i).2.1)

/-- The regions with extent. -/
def RigBlock.extents (b : RigBlock) : List (Nat × Nat × Nat) :=
  b.regionList.filter fun r => 0 < r.2.2

def checkRange (b : RigBlock) : Option LoadDetail :=
  firstFailure .regions (fun r => Config.configurableTop < r.1 + r.2 - 1) b.extents

/-- Whether two regions share a word. -/
def shareWord (r q : Nat × Nat) : Bool := r.1 < q.1 + q.2 && q.1 < r.1 + r.2

/-- The first region that shares a word with an earlier one. -/
def firstOverlap : List (Nat × Nat) → List (Nat × Nat × Nat) → Option LoadDetail
  | _, [] => none
  | before, r :: rest =>
    if before.any (shareWord r.2) then some ⟨.regions, r.1⟩
    else firstOverlap (r.2 :: before) rest

def checkOverlap (b : RigBlock) : Option LoadDetail := firstOverlap [] b.extents

def checkRing (b : RigBlock) : Option LoadDetail :=
  if within 16 1024 (b.regionWord 4) then none else some ⟨.regions, 3⟩

/-! ### Steps 8 and 9 (R32) -/

def checkLimits (b : RigBlock) : Option LoadDetail :=
  firstFailure .hoists (fun h => h.upper ≤ h.lower) b.presentHoists

def checkQueues (b : RigBlock) : Option LoadDetail :=
  firstFailure .hoists (fun h => wordAt b.queues h.queue = 0) b.presentHoists

/-! ### Steps 10 to 13 (R35) -/

def checkGroupSize (b : RigBlock) : Option LoadDetail :=
  firstFailure .groups
    (fun g => !within 1 8 g.count || (g.positions.drop g.count).any (· ≠ 255)) b.usedGroups

/-- A member position of a group fails: `before` are the slots already listed. -/
def memberBad (b : RigBlock) (g : Nat) (before : List Nat) (v : Nat) : Bool :=
  decide (v ∈ before) ||
    match b.hoistAt v with
    | none => true
    | some h => !h.present || h.group ≠ g

/-- Some member of a list fails, each tested against those before it. -/
def someMemberBad (b : RigBlock) (g : Nat) : List Nat → List Nat → Bool
  | _, [] => false
  | before, v :: rest => memberBad b g before v || someMemberBad b g (v :: before) rest

/-- The first pass of step 11: in-use groups in number order. -/
def firstMemberFailure (b : RigBlock) : List Nat → List (Nat × GroupEntry) → Option LoadDetail
  | _, [] => none
  | before, p :: rest =>
    if someMemberBad b p.1 before p.2.members then some ⟨.groups, p.1⟩
    else firstMemberFailure b (p.2.members ++ before) rest

/-- The second pass: a hoist whose group is not in use or does not list it. -/
def unlisted (b : RigBlock) (slot : Nat) (h : HoistEntry) : Bool :=
  decide (h.group < 32) &&
    match b.groups[h.group]? with
    | none => true
    | some g => !g.inUse || decide (slot ∉ g.members)

def checkMembers (b : RigBlock) : Option LoadDetail :=
  firstMemberFailure b [] b.usedGroups <|>
    ((b.presentHoists.find? fun p => unlisted b p.1 p.2).map fun p => ⟨.hoists, p.1⟩)

/-- The hoist entries of a group's members. -/
def RigBlock.memberEntries (b : RigBlock) (g : GroupEntry) : List HoistEntry :=
  g.members.filterMap b.hoistAt

/-- A group's members differ in step, band or ratio, or one names another queue. -/
def mismatched (b : RigBlock) (g : GroupEntry) : Bool :=
  match b.memberEntries g with
  | [] => false
  | h :: rest =>
    (h :: rest).any fun m =>
      m.queue ≠ g.queue || m.step ≠ h.step || m.band ≠ h.band || m.ratio ≠ h.ratio

def checkMismatch (b : RigBlock) : Option LoadDetail :=
  firstFailure .groups (mismatched b) b.usedGroups

def checkBudget (b : RigBlock) : Option LoadDetail :=
  if within 4 128 (b.setting 2) then
    firstFailure .groups (fun g => b.setting 2 < g.count) b.usedGroups
  else some ⟨.header, 2⟩

/-! ### Steps 14 to 16 (R36) -/

def checkGridSize (b : RigBlock) : Option LoadDetail :=
  if within 1 16 b.showRows && within 1 16 b.showColumns then
    firstFailure .grid (· ≠ 255) ((indexed b.venueBytes).drop (b.showRows * b.showColumns))
  else some ⟨.grid, 256⟩

/-- The first cell that names a slot already named. -/
def firstDuplicate : List Nat → List (Nat × Nat) → Option LoadDetail
  | _, [] => none
  | before, p :: rest =>
    if p.2 ≠ 255 ∧ p.2 ∈ before then some ⟨.grid, p.1⟩
    else firstDuplicate (p.2 :: before) rest

def checkDuplicate (b : RigBlock) : Option LoadDetail := firstDuplicate [] (indexed b.venueCells)

def checkAbsent (b : RigBlock) : Option LoadDetail :=
  firstFailure .grid (fun v => v ≠ 255 && !b.presentAt v) (indexed b.venueCells)

/-! ### Validation (R32) -/

/-- A step of validation. -/
def runStep (b : RigBlock) : LoadStep → Option LoadDetail
  | .badMagic => checkMagic b
  | .badChecksum => checkChecksum b
  | .badFormat => checkFormat b
  | .entryMisplaced => checkMisplaced b
  | .regionRange => checkRange b
  | .regionOverlap => checkOverlap b
  | .ringSize => checkRing b
  | .limitsInverted => checkLimits b
  | .queueDisabled => checkQueues b
  | .groupSize => checkGroupSize b
  | .groupMember => checkMembers b
  | .groupMismatch => checkMismatch b
  | .budget => checkBudget b
  | .gridSize => checkGridSize b
  | .gridDuplicate => checkDuplicate b
  | .gridAbsent => checkAbsent b

/-- The sixteen steps in order. -/
def allSteps : List LoadStep :=
  [.badMagic, .badChecksum, .badFormat, .entryMisplaced, .regionRange, .regionOverlap, .ringSize,
    .limitsInverted, .queueDisabled, .groupSize, .groupMember, .groupMismatch, .budget, .gridSize,
    .gridDuplicate, .gridAbsent]

/-- The first step that fails, with its detail. -/
def validate (b : RigBlock) : Option (LoadStep × LoadDetail) :=
  allSteps.findSome? fun step => (runStep b step).map fun d => (step, d)

end Sys2Proof.Machine
end

