-- ==== Sys2Proof/Machine/Loader.lean ====
section
/-! DEFINITION. The Rig Loader: the teardown, the load and its two ends, SET_MODE and RESTART, and
the reclassification of a held access (01 R9, R15; 02, R28 to R43). -/

namespace Sys2Proof.Machine

/-! ### Held accesses (R5, R9, R15) -/

/-- A master's access enters WAITING_PORT, at the back of the order or ahead of it (R20). -/
def enterWaiting (a : Access) (ahead : Bool) (s : State) : State :=
  { s with port := { s.port with
      places := s.port.places.set a.mid (.waiting a)
      order := if ahead then a.mid :: s.port.order else s.port.order ++ [a.mid] } }

/-- A master's place becomes EMPTY. -/
def emptyPlace (m : Mid) (s : State) : State :=
  { s with port := { s.port with places := s.port.places.set m .empty } }

/-- The word a master's read returns. -/
def returnData (m : Mid) (w : Word) (s : State) : State :=
  { s with port := { s.port with readData := s.port.readData.set m w } }

/-- The notice of a dropped write: its address and its master (R19). -/
def noteDrop (a : Access) (n : Option (NoticeCode × Option Nat)) (s : State) : State :=
  match n with
  | none => s
  | some (code, subject) =>
    s.notice code subject (a.addr.setWidth 32) (BitVec.ofNat 32 (midNumber a.mid))

/-- A held access is classified again when its condition ends. A held access is a drive link engine
read of the setpoint area or a processor write to the configuration block, so nothing is captured
from it (R9, R15). -/
def reclassify (m : Mid) (ahead : Bool) (s : State) : State :=
  match s.port.places.get m with
  | .empty => s
  | .waiting _ => s
  | .held a =>
    match classify s a with
    | .pass => enterWaiting a ahead s
    | .capture _ => enterWaiting a ahead s
    | .intercept _ => enterWaiting a ahead s
    | .drop n => noteDrop a n (emptyPlace m s)
    | .zero => returnData m 0 (emptyPlace m s)
    | .hold => s

/-! ### Teardown (R43) -/

/-- A queue of the Pacer and its settings at a teardown; next starts, trim and batch number are
kept (R111). -/
def Pacer.teardown (p : Pacer) : Pacer :=
  { p with
    queues := Vector.replicate 8 .clear
    budget := none
    reversalDwell := none
    pendingFrame := false
    frozen := false }

/-- The Report Writer at a teardown: a record whose write has begun is kept (R168). -/
def ReportWriter.teardown (r : ReportWriter) : ReportWriter :=
  { r with
    queue := if r.recordWrite.isSome then r.queue.take 1 else []
    ring := if r.recordWrite.isSome then r.ring else none
    cadence := none
    snapshot := .notTaken
    claim := match r.claim with
      | some c => if c.word = .snapshot then none else some c
      | none => none }

/-- Whether a teardown takes an operation's work from its claimant: a setpoint record word, or a
word of a snapshot (R126, R171). -/
def State.opTornDown (s : State) (op : PortOp) : Bool :=
  match op.claimant with
  | .releaseWriter => true
  | .reportWriter =>
    match s.report.claim with
    | some c => c.word = .snapshot
    | none => false
  | .passThrough _ => false
  | .rigLoader => false

/-- The operation in flight at a teardown; it completes (R126). -/
def State.tornDownOp (s : State) : Option PortOp :=
  s.memPort.op.map fun op => { op with live := op.live && !s.opTornDown op }

/-- The installed configuration and the state built on it are cleared (R43). -/
def teardown (s : State) : State :=
  { s with
    port := { s.port with status := Vector.replicate 128 .clear }
    memPort := { s.memPort with op := s.tornDownOp }
    regions := []
    loader := { s.loader with candidate := [] }
    lock := s.lock.clear
    hoists := Vector.replicate 128 none
    confirmLimit := none
    idlePark := none
    groups := Vector.replicate 32 none
    goals := { s.goals with keepCode := none, staging := [] }
    grid := none
    pacer := s.pacer.teardown
    writer := .clear
    statusTimeout := none
    report := s.report.teardown }

/-- The gate mode is set. -/
def setGate (g : GateMode) (s : State) : State := { s with loader := { s.loader with gate := g } }

/-! ### LOAD and its reads (R29 to R31) -/

/-- Some hoist is RELEASING or RUN, or some mover is linked (R29). -/
def State.moving (s : State) : Bool :=
  0 < s.linkedMoverCount ||
    allSlots.any fun slot =>
      match s.hoist slot with
      | none => false
      | some h => h.power = .releasing || h.power = .run

/-- An accepted LOAD (R30). The drive link engine's held read becomes a read of plain memory. -/
def beginLoad (s : State) : State :=
  let torn := teardown s
  reclassify .driveLink false
    { torn with loader := { torn.loader with
        gate := .loading
        phase := .reading 0
        result := .inProgress
        detail := none } }

/-- A LOAD request (R29). LOADING, where the rule says none can come, is refused. -/
def loadRequest (_ : Request) (s : State) : State :=
  match s.loader.gate with
  | .unconfigured => beginLoad s
  | .guard =>
    if s.lock.state.guards then s.answer .refusedLock 0
    else if s.moving then s.answer .refusedMoving 0
    else beginLoad s
  | .bypass => s.answer .refusedMode 0
  | .loading => s.answer .refusedMode 0

/-- A read of the configuration block has completed (R31). -/
def loadWordDone (w : Word) (s : State) : State :=
  match s.loader.phase with
  | .reading n =>
    { s with loader := { s.loader with
        candidate := s.loader.candidate ++ [w]
        phase := if n + 1 < Config.configWords then .reading (n + 1) else .validating } }
  | .idle => s
  | .validating => s

/-! ### A load that fails (R37) -/

/-- The ends of a load meet the processor's held write and the drive link engine's held read. -/
def reclassifyAll (s : State) : State := reclassify .driveLink false (reclassify .processor false s)

/-- A step of validation has failed (R37). -/
def failLoad (step : LoadStep) (d : LoadDetail) (s : State) : State :=
  let torn := teardown s
  reclassifyAll (State.answer
    { torn with loader := { torn.loader with
        gate := .unconfigured
        phase := .idle
        result := .failed step
        detail := some d
        failed := true } }
    .loadFailed (BitVec.ofNat 32 (loadResultCode (.failed step))))

/-! ### A load that passes (R38) -/

/-- The hoist record of a present entry (R44, R45). -/
def HoistEntry.record (e : HoistEntry) : Hoist where
  group := if e.group < 32 then some (Fin.ofNat 32 e.group) else none
  queue := Fin.ofNat 8 e.queue
  step := e.step
  approachRatio := e.ratio
  lowerLimit := e.lower
  upperLimit := e.upper
  overloadThreshold := e.overload
  slackThreshold := e.slack
  followLimit := e.follow
  approachBand := e.band
  wakeDelay := e.wake
  brakeDelay := e.brake
  power := .off
  command := .off
  commandDirty := false
  runDemand := false
  delay := 0
  confirm := 0
  settle := 0
  commanded := 0
  synced := false
  syncDue := false
  lastDirection := none
  sinceStep := 0
  goal := none
  measured := none
  load := none
  reported := none
  driveCode := none
  stamp := none
  age := 0
  causes := .empty

/-- The group record of an in-use entry (R94, R95). -/
def GroupEntry.record (e : GroupEntry) : TrussGroup where
  members := e.members.map (Fin.ofNat 128)
  queue := Fin.ofNat 8 e.queue
  tolerance := e.tolerance
  policy := if e.retries then .retry else .latch
  retryHold := e.retryHold
  state := .idle
  causes := .empty
  retry := 0
  lastSpread := 0

/-- The region kinds by entry (R24). -/
def RigBlock.regionKind (b : RigBlock) (entry : Nat) : RegionKind :=
  match entry with
  | 0 => .setpoint
  | 1 => .status
  | 2 => .grid
  | 3 => .ring
  | 4 => .statistics
  | n =>
    let attributes := BitVec.ofNat 2 (b.userRegion (n - 5)).2.2
    .user (attributes.getLsbD 0) (attributes.getLsbD 1)

/-- The region map of a block: every region with extent. -/
def RigBlock.regionMap (b : RigBlock) : List Region :=
  b.extents.map fun r => ⟨b.regionKind r.1, r.2.1, r.2.2⟩

/-- The grid settings of a block (R86). -/
def RigBlock.gridSettings (b : RigBlock) : GridSettings where
  rows := b.showRows
  columns := b.showColumns
  rotation := match (wordAt b.grid 2).toNat with
    | 90 => .quarter90
    | 180 => .half180
    | 270 => .threeQuarter270
    | _ => .none0
  mirror := (wordAt b.grid 3).toNat = 1
  venue := b.venueCells.map fun v => if v = 255 then none else some (Fin.ofNat 128 v)

/-- The fault ring placement of a block. -/
def RigBlock.ring (b : RigBlock) : RingPlacement := ⟨b.regionWord 3, b.regionWord 4⟩

/-- The password of a block. -/
def RigBlock.passwordWords (b : RigBlock) : Vector Word 4 :=
  Vector.ofFn fun i => wordAt b.password i.val

/-- The hoist records of a block. -/
def RigBlock.hoistRecords (b : RigBlock) : Vector (Option Hoist) 128 :=
  Vector.ofFn fun slot =>
    (b.hoistAt slot.val).bind fun e => if e.present then some e.record else none

/-- The group records of a block. -/
def RigBlock.groupRecords (b : RigBlock) : Vector (Option TrussGroup) 32 :=
  Vector.ofFn fun g => b.groups[g.val]?.bind fun e => if e.inUse then some e.record else none

/-- The Pacer's settings from a block; the batch number is kept (R111). -/
def Pacer.install (b : RigBlock) (p : Pacer) : Pacer where
  queues := Vector.ofFn fun q => { PacingQueue.clear with
    increment := some (wordAt b.queues q.val).toNat }
  nextStartA := 0
  nextStartB := 0
  budget := some (b.setting 2)
  reversalDwell := some (b.setting 9)
  trim := b.setting 5
  batchNumber := p.batchNumber
  pendingFrame := false
  frozen := false

/-- The Report Writer's settings from a block; the write index is kept where the ring stands where
it stood (R38). -/
def ReportWriter.install (b : RigBlock) (previous : Option RingPlacement) (r : ReportWriter) :
    ReportWriter :=
  { r with
    ring := some b.ring
    writeIndex := if previous = some b.ring then r.writeIndex else 0
    cadence := some (b.setting 10, b.setting 11) }

/-- The candidate installed in every block, before the result is handed (R38). -/
def install (b : RigBlock) (s : State) : State :=
  { s with
    regions := b.regionMap
    loader := { s.loader with
      gate := .guard
      phase := .idle
      candidate := []
      result := .passed
      detail := none
      failed := false
      previousRing := some b.ring }
    lock := installPassword b.passwordWords s.lock
    hoists := b.hoistRecords
    confirmLimit := some (b.setting 7)
    idlePark := some (b.setting 8)
    groups := b.groupRecords
    goals := {
      mode := if b.setting 4 = 0 then .cued else .direct
      keepCode := some (wordAt b.header 3)
      staging := [] }
    grid := some b.gridSettings
    pacer := s.pacer.install b
    statusTimeout := some (b.setting 6)
    report := s.report.install b s.loader.previousRing }

/-- The load passes (R38): a marker of dropped records is queued before anything later (R168). -/
def passLoad (b : RigBlock) (s : State) : State :=
  reclassifyAll ((install b s).answer .done 0).queueMarker

/-- The end of VALIDATING (R32). -/
def endLoad (s : State) : State :=
  let b := rigBlock s.loader.candidate
  match validate b with
  | some (step, d) => failLoad step d s
  | none => passLoad b s

/-! ### SET_MODE and RESTART (R40 to R42) -/

/-- Every run demand is cleared. -/
def clearDemands (s : State) : State := forEach clearRunDemand allSlots s

/-- The Pacer frozen at the entry to BYPASS: no pending frame, no resume point (R129). -/
def Pacer.freeze (p : Pacer) : Pacer :=
  { p with
    queues := p.queues.map fun q => { q with resume := none }
    pendingFrame := false
    frozen := true }

/-- SET_MODE(BYPASS) accepted (R40). -/
def enterBypass (s : State) : State :=
  let still := clearDemands (removeAllMotion s)
  (setGate .bypass { still with pacer := still.pacer.freeze }).answer .done 0

/-- A SET_MODE request for BYPASS (R40). -/
def setModeBypassRequest (_ : Request) (s : State) : State :=
  if s.loader.gate ≠ .guard then s.answer .refusedMode 0
  else if s.lock.state.guards then s.answer .refusedLock 0
  else enterBypass s

/-- The power state a hoist takes at the return to GUARD (R41). -/
def Hoist.adoptedPower (h : Hoist) : PowerState :=
  if h.synced then
    match h.reported with
    | none => .off
    | some .off => .off
    | some .powered => .standby
    | some .released => .standby
  else .off

/-- A hoist at the return to GUARD (R41, R62). -/
def Hoist.adopt (h : Hoist) (confirmLimit : Nat) : Hoist :=
  { h.withPower h.adoptedPower with
    runDemand := false
    delay := 0
    confirm := 0
    settle :=
      if h.reported = some .released ∧ h.adoptedPower = .standby then confirmLimit else 0 }

/-- The Pacer at the return to GUARD; next starts are kept (R41, R129). -/
def Pacer.unfreeze (p : Pacer) : Pacer :=
  { p with
    queues := p.queues.map fun q => { q with rate := 0, due := false }
    frozen := false }

/-- SET_MODE(GUARD) accepted (R41). -/
def returnToGuard (s : State) : State :=
  let back := setGate .guard { s with pacer := s.pacer.unfreeze }
  let adopted :=
    forEach (fun slot => (State.updateHoist · slot (·.adopt s.confirmFrames))) allSlots back
  (syncAll adopted).answer .done 0

/-- A SET_MODE request for GUARD (R41). -/
def setModeGuardRequest (_ : Request) (s : State) : State :=
  if s.loader.gate = .bypass then returnToGuard s else s.answer .refusedMode 0

/-- A SET_MODE request, by its argument (R40, R41). -/
def setModeRequest (r : Request) (s : State) : State :=
  match bypassAsked r.arguments[0] with
  | none => s.answer .badArgument 0
  | some true => setModeBypassRequest r s
  | some false => setModeGuardRequest r s

/-- RESTART accepted: the result first, then the teardown (R42). -/
def restartPart (s : State) : State :=
  reclassify .driveLink false (setGate .unconfigured (teardown (s.answer .done 0)))

/-- A RESTART request (R42). LOADING, where the rule says none can come, is refused. -/
def restartRequest (_ : Request) (s : State) : State :=
  if !s.loader.gate.installed then s.answer .refusedMode 0
  else if s.lock.state.guards then s.answer .refusedLock 0
  else restartPart s

end Sys2Proof.Machine
end

