-- ==== Sys2Proof/Machine/Requests.lean ====
section
/-! DEFINITION. The Request Handler: request events and their dispatch, and the requests of the
Halt Controller, the Pacer and the Report Writer (07 R127, R128; 09 R157, R158; 11 R165 to R167,
R172). -/

namespace Sys2Proof.Machine

/-! ### RESUME (R157, R158) -/

/-- Whether a present hoist has OVERLOAD in its cause set. -/
def State.overloaded (s : State) (slot : Slot) : Bool :=
  match s.hoist slot with
  | none => false
  | some h => h.causes.overload

/-- The lowest overloaded hoist that keeps a halt of OVERLOAD_BYPASS latched. -/
def State.overloadObstacle (s : State) : Option Slot :=
  if s.halt.causes.overloadBypass then allSlots.find? s.overloaded else none

/-- The latch cleared. -/
def clearHalt (s : State) : State :=
  { s with halt := { s.halt with latched := false, causes := .empty } }

/-- An accepted RESUME (R158). -/
def resumeRig (s : State) : State :=
  if s.loader.gate = .guard then
    (syncAll (clearHalt s)).answer .done (BitVec.ofNat 32 s.syncedSlots.length)
  else (clearHalt s).answer .done 0

/-- A RESUME request (R157). -/
def resumeRequest (_ : Request) (s : State) : State :=
  if !s.loader.gate.installed then s.answer .refusedMode 0
  else if !s.halt.latched then s.answer .done 0
  else if s.halt.channelA = .opened ∨ s.halt.channelB = .opened then s.answer .refusedHalt 1
  else if s.halt.cycle ≠ .notRequired then s.answer .refusedHalt 2
  else match s.overloadObstacle with
    | some slot => s.answer .refusedFault (BitVec.ofNat 32 slot.val)
    | none => resumeRig s

/-! ### SET_RATE and SET_TRIM (R127, R128) -/

/-- A SET_RATE request (R127). -/
def setRateRequest (r : Request) (s : State) : State :=
  let increment := r.arguments[1].toNat
  if h : r.arguments[0].toNat < 8 then
    if increment < 1 ∨ 256 < increment then s.answer .badArgument 0
    else if !s.loader.gate.installed then s.answer .refusedMode 0
    else
      let queue : QueueNo := ⟨r.arguments[0].toNat, h⟩
      (s.updateQueue queue fun q => { q with increment := some increment }).answer .done
        (BitVec.ofNat 32 ((s.queue queue).increment.getD 0))
  else s.answer .badArgument 0

/-- A SET_TRIM request (R128). -/
def setTrimRequest (r : Request) (s : State) : State :=
  let trim := r.arguments[0].toNat
  if trim < 1 ∨ 8 < trim then s.answer .badArgument 0
  else if !s.loader.gate.installed then s.answer .refusedMode 0
  else State.answer { s with pacer := { s.pacer with trim := trim } } .done
    (BitVec.ofNat 32 s.pacer.trim)

/-! ### SNAPSHOT_STATS (R172) -/

/-- The place of a SNAPSHOT_STATS request in hand. -/
def setStatsRequest (x : StatsRequest) (s : State) : State :=
  { s with report := { s.report with statsRequest := x } }

/-- A SNAPSHOT_STATS request: it stays in hand until its own snapshot is written. -/
def snapshotStatsRequest (_ : Request) (s : State) : State :=
  if !s.loader.gate.installed then s.answer .refusedMode 0
  else match s.report.snapshot with
    | .notTaken => takeSnapshot (setStatsRequest .own s)
    | .owed _ => setStatsRequest .afterCurrent s
    | .writing _ _ => setStatsRequest .afterCurrent s

/-! ### Dispatch (R165, R167) -/

/-- A CLEAR_FAULT request goes to the Group Table or to the Status Monitor (R143). -/
def clearFaultRequest (r : Request) (s : State) : State :=
  if subjectKind r.arguments[0] = some .group then clearFaultGroupRequest r s
  else clearFaultHoistRequest r s

/-- A request is dispatched to its owner by its code; a code that names no request is answered at
once (R165, R167). -/
def dispatch (r : Request) (s : State) : State :=
  match r.code.toNat with
  | 1 => loadRequest r s
  | 2 => restartRequest r s
  | 3 => setModeRequest r s
  | 4 => unlockRequest r s
  | 5 => lockRequest r s
  | 6 => goRequest r s
  | 7 => clearStageRequest r s
  | 8 => withdrawRequest r s
  | 9 => setGoalModeRequest r s
  | 10 => powerRequest r s
  | 11 => clearFaultRequest r s
  | 12 => resumeRequest r s
  | 13 => setRateRequest r s
  | 14 => setTrimRequest r s
  | 15 => snapshotStatsRequest r s
  | _ => s.answer .unknownRequest 0

/-- The request in hand, in every state but IDLE. -/
def RequestState.request : RequestState → Option Request
  | .idle => none
  | .inHand r => some r
  | .answered r => some r
  | .closing r _ => some r

/-- The request a request event makes: the captured code and arguments of this moment. -/
def State.capturedRequest (s : State) : Request := ⟨s.port.requestCode, s.port.arguments⟩

/-- A request is taken. -/
def takeRequest (r : Request) (s : State) : State :=
  dispatch r { s with requests := { s.requests with state := .inHand r } }

/-- A request event (R165), or an overrun (R167). -/
def requestEvent (s : State) : State :=
  match s.requests.state.request with
  | none => takeRequest s.capturedRequest s
  | some inHand => s.notice .requestOverrun none s.port.requestCode inHand.code

end Sys2Proof.Machine
end

