-- ==== Sys2Proof/Machine/Accesses.lean ====
section
/-! DEFINITION. The controller port: an access is taken into its place, classified, and carried out
by its class (01, R1, R2, R6, R13, R18). -/

namespace Sys2Proof.Machine

/-- A write to the request code word; a whole one is a request event (R13). -/
def captureRequestCode (data : Word) (enables : ByteEnables) (s : State) : State :=
  let captured : State := { s with port := { s.port with
    requestCode := mergeBytes s.port.requestCode data enables } }
  if enables = allBytes then requestEvent captured else captured

/-- A write to an argument word (R13). -/
def captureArgument (n : Fin 4) (data : Word) (enables : ByteEnables) (s : State) : State :=
  { s with port := { s.port with
      arguments := s.port.arguments.set n.val (mergeBytes s.port.arguments[n] data enables) n.isLt } }

/-- A captured word is handed to its consumer at classification (R2). -/
def consume (what : Capture) (addr : Addr) (data : Word) (enables : ByteEnables) (s : State) :
    State :=
  match what with
  | .requestCode => captureRequestCode data enables s
  | .argument n => captureArgument n data enables s
  | .keyWord n => captureKey n data enables s
  | .status slot word => captureStatus slot word data enables s
  | .grid o => takeGridWrite o data addr s

/-- What a write carries; a read carries none. -/
def accessPayload : AccessOp → Option (Word × ByteEnables)
  | .read => none
  | .write data enables => some (data, enables)

/-- Carry out an access by its class (R2). -/
def carryOut (a : Access) (c : AccessClass) (s : State) : State :=
  match c with
  | .pass => enterWaiting a false s
  | .capture what =>
    match accessPayload a.op with
    | none => enterWaiting a false s
    | some (data, enables) => consume what a.addr data enables (enterWaiting a false s)
  | .intercept slot =>
    match accessPayload a.op with
    | none => s
    | some (data, _) => takeGoal slot data a.addr s
  | .drop n => noteDrop a n s
  | .zero => returnData a.mid 0 s
  | .hold => { s with port := { s.port with places := s.port.places.set a.mid (.held a) } }

/-- An access taken into its master's EMPTY place and classified at once (R1, R6). -/
def takeAccess (a : Access) (s : State) : State := carryOut a (classify s a) s

/-- Whether the part takes an access of a master now: RESET low, its place EMPTY, and no earlier
access of its own on the bus (R1, R4). -/
def State.accepts (s : State) (m : Mid) : Bool :=
  !s.lines.reset && !(s.port.places.get m).occupied && (s.port.bus.get m).isEmpty

/-- The accesses of a master that stay on the bus. -/
def setBus (m : Mid) (waiting : List Access) (s : State) : State :=
  { s with port := { s.port with bus := s.port.bus.set m waiting } }

/-- An access arrives from a master. One that is not taken stays on the bus (R1). -/
def offerAccess (a : Access) (s : State) : State :=
  if s.accepts a.mid then takeAccess a s
  else setBus a.mid (s.port.bus.get a.mid ++ [a]) s

/-- The accesses of one master from the bus, as long as its place is EMPTY. -/
def drainList (m : Mid) : List Access → State → State
  | [], s => setBus m [] s
  | a :: rest, s =>
    if (s.port.places.get m).occupied then setBus m (a :: rest) s
    else drainList m rest (takeAccess a (setBus m rest s))

/-- Accesses that stayed on the bus are taken as new arrivals (R1). -/
def drainBus (m : Mid) (s : State) : State := drainList m (s.port.bus.get m) s

end Sys2Proof.Machine
end

