-- ==== Sys2Proof/Machine/Port.lean ====
section
/-! DEFINITION. The memory port and its arbiter: grants, the completion of each claimant's word, and
what the part does at the end of every event (01 R3, R20; 07 R124; 11 R166, R169). -/

namespace Sys2Proof.Machine

/-! ### Claims (R3, R20) -/

/-- The word the Report Writer has claimed. -/
def reportClaim (s : State) : Option (Addr × Word) :=
  s.report.claim.map fun c => (c.addr, c.data)

/-- The word the Rig Loader has to read (R31). -/
def loaderClaim (s : State) : Option Addr :=
  match s.loader.phase with
  | .reading n => some (addrOf (Config.configBase + n))
  | .idle => none
  | .validating => none

/-- The highest-ranked waiting internal claimant, with its operation (R20). -/
def internalClaim (s : State) : Option (Claimant × Addr × AccessOp) :=
  match nextReleaseWord s, reportClaim s, loaderClaim s with
  | some (addr, data), _, _ => some (.releaseWriter, addr, .write data allBytes)
  | none, some (addr, data), _ => some (.reportWriter, addr, .write data allBytes)
  | none, none, some addr => some (.rigLoader, addr, .read)
  | none, none, none => none

/-! ### Grants (R9, R20, R124) -/

/-- An operation is granted the free port. -/
def startOp (claimant : Claimant) (addr : Addr) (op : AccessOp) (grant : Grant) (s : State) :
    State :=
  { s with memPort := ⟨some ⟨claimant, addr, op, true⟩, grant⟩ }

/-- The pass-through access next in order is granted. -/
def grantPass (m : Mid) (rest : List Mid) (s : State) : State :=
  let taken : State := { s with port := { s.port with order := rest } }
  match s.port.places.get m with
  | .waiting a => startOp (.passThrough m) a.addr a.op .passThrough taken
  | .empty => taken
  | .held _ => taken

/-- A drive link engine read of the setpoint area that waits for the port (R9). -/
def State.waitingSetpointRead (s : State) : Option Access :=
  match s.port.places.driveLink with
  | .waiting a =>
    if s.inSetpointArea a.addr ∧ a.op = .read then some a else none
  | .empty => none
  | .held _ => none

/-- At the start of a batch in progress such a read returns to HELD (R9). -/
def holdSetpointRead (s : State) : State :=
  match s.waitingSetpointRead with
  | none => s
  | some a =>
    { s with port := { s.port with
        places := { s.port.places with driveLink := .held a }
        order := s.port.order.filter (· ≠ .driveLink) } }

/-- The Release Writer is granted its next word; the first of a batch from STARTING makes it
WRITING (R124). -/
def releaseGranted (s : State) : State :=
  let held := match s.writer.state with
    | .starting => holdSetpointRead s
    | .idle => s
    | .writing => s
  { held with writer := { held.writer with
      state := .writing
      hand := held.writer.hand.map fun h => { h with granted := h.granted + 1 } } }

/-- An internal claimant is granted the port. -/
def grantInternal (claimant : Claimant) (addr : Addr) (op : AccessOp) (s : State) : State :=
  let started := startOp claimant addr op .internal s
  match claimant with
  | .releaseWriter => releaseGranted started
  | .reportWriter => started
  | .rigLoader => started
  | .passThrough _ => started

/-- The arbiter grants the free port (R20). -/
def grantPort (s : State) : State :=
  match s.memPort.op with
  | some _ => s
  | none =>
    match s.port.order, internalClaim s with
    | m :: rest, none => grantPass m rest s
    | m :: rest, some (claimant, addr, op) =>
      match s.memPort.previous with
      | .internal => grantPass m rest s
      | .passThrough => grantInternal claimant addr op s
    | [], some (claimant, addr, op) => grantInternal claimant addr op s
    | [], none => s

/-! ### The end of every event -/

/-- What the blocks do once an event has been carried out: changed part-owned words are dirty, a
result handed draws its words, the Report Writer claims, the arbiter grants, the lines follow
(log entries 8, 9, 15). While RESET is asserted no block claims. -/
def endOfEvent (before s : State) : State :=
  if s.lines.reset then driveLines s
  else driveLines (grantPort (claimReport (drawAwaited (markChanges before s))))

/-- An event of the part: its own effect, then the end of the event. -/
def event (f : State → State) (s : State) : State := endOfEvent s (f s)

/-! ### Completions (R3) -/

/-- The memory takes a write (R3). -/
def memoryTakes (addr : Addr) (op : AccessOp) (s : State) : State :=
  match op with
  | .read => s
  | .write data enables => { s with mem := Memory.writeWord s.mem addr data enables }

/-- The operation leaves the port, its write in memory. -/
def finishOp (op : PortOp) (s : State) : State :=
  memoryTakes op.addr op.op { s with memPort := { s.memPort with op := none } }

/-- The word a completed read returns. -/
def readWord (op : PortOp) (s : State) : Word := Memory.readWord s.mem op.addr

/-- A pass-through access completes at its master: the place is EMPTY, and what stayed on the bus is
taken (R1, R2). -/
def passCompletes (m : Mid) (op : PortOp) (s : State) : State :=
  let returned := match op.op with
    | .read => returnData m (readWord op s) s
    | .write _ _ => s
  drainBus m (emptyPlace m returned)

/-- The Release Writer is IDLE: the held read is classified again, ahead of the other waiting
accesses, and a pending frame is taken (R9, R20, R112). -/
def writerIdle (s : State) : State := takePending (reclassify .driveLink true s)

/-- The last word of the batch in hand has been written (R124). -/
def batchWritten (abandoned : Bool) (s : State) : State :=
  let counted := if abandoned then s else s.count .batchesWritten
  let next := nextBatch counted
  match next.writer.state with
  | .idle => writerIdle next
  | .starting => next
  | .writing => next

/-- A word of a record has been written (R124). -/
def releaseWordDone (s : State) : State :=
  match s.writer.hand with
  | none => s
  | some h =>
    if h.granted < 4 then s
    else
      let left : BatchInHand := { h with records := h.records.tail, granted := 0 }
      if left.records.isEmpty then batchWritten h.abandoned s
      else { s with writer := { s.writer with hand := some left } }

/-- What the completion of an operation does for its claimant, where the operation still stands. -/
def opCompletes (op : PortOp) (s : State) : State :=
  let finished := finishOp op s
  if op.live then
    match op.claimant with
    | .passThrough m => passCompletes m op finished
    | .releaseWriter => releaseWordDone finished
    | .reportWriter => reportWordDone finished
    | .rigLoader => loadWordDone (readWord op finished) finished
  else finished

end Sys2Proof.Machine
end

