-- ==== Sys2Proof/Machine/AccessCommands.lean ====
section
/-! DEFINITION. The commands that are accesses: an access arrives and is classified as what it is
(01 R6; 04 R68; 05 R89; 08 R132, R133; 10 R161). -/

namespace Sys2Proof.Machine

/-- The event of an access arriving. -/
def arrive (a : Access) (s : State) : State := event (offerAccess a) s

/-- ACCESS_ARRIVAL: any access arrives (R6). -/
def execAccessArrival (a : Access) (s : State) : Host.Outcome State Fault Refusal :=
  .next (arrive a s)

/-- GOAL_WRITE: a whole processor write at a goal word (R68). -/
def execGoalWrite (addr : Addr) (goal : Word) (s : State) : Host.Outcome State Fault Refusal :=
  .next (arrive ⟨.processor, addr, .write goal allBytes⟩ s)

/-- GRID_WRITE: a whole processor write in the grid window (R89). -/
def execGridWrite (addr : Addr) (goal : Word) (s : State) : Host.Outcome State Fault Refusal :=
  .next (arrive ⟨.processor, addr, .write goal allBytes⟩ s)

/-- STATUS_WORD_WRITE: a drive link engine write to status word 0, 1 or 2 (R132). -/
def execStatusWordWrite (addr : Addr) (data : Word) (enables : ByteEnables) (s : State) :
    Host.Outcome State Fault Refusal :=
  .next (arrive ⟨.driveLink, addr, .write data enables⟩ s)

/-- STATUS_ARRIVAL: a drive link engine write to status word 3 (R133). -/
def execStatusArrival (addr : Addr) (data : Word) (enables : ByteEnables) (s : State) :
    Host.Outcome State Fault Refusal :=
  .next (arrive ⟨.driveLink, addr, .write data enables⟩ s)

/-- KEY_WORD_WRITE: a processor write to key word n (R161). -/
def execKeyWordWrite (n : Fin 4) (data : Word) (enables : ByteEnables) (s : State) :
    Host.Outcome State Fault Refusal :=
  .next (arrive ⟨.processor, keyWordAddr n, .write data enables⟩ s)

end Sys2Proof.Machine
end

