-- ==== Sys2Proof/Machine/FrameCommands.lean ====
section
/-! DEFINITION. FRAME, and the counts that run out at a FRAME arrival, each also an event of its own
(log entry 6): it makes the last count alone, and has no effect where that count is not the last. -/

namespace Sys2Proof.Machine

/-! ### FRAME -/

/-- Things taken in an order read off numbers: each number chooses among those left. -/
def arrange {α : Type} (choose : Nat → Nat) : Nat → Nat → List α → List α
  | 0, _, _ => []
  | n + 1, k, xs =>
    match xs[choose k % xs.length]? with
    | none => []
    | some x => x :: arrange choose n (k + 1) (xs.eraseIdx (choose k % xs.length))

/-- What one FRAME arrival reaches, beside the frame count. -/
inductive FramePart
  | snapshot
  | discrepancy
  | hoists
  | retries
  | pacer
  deriving DecidableEq, Repr

/-- The parts of a FRAME arrival. -/
def allFrameParts : List FramePart := [.snapshot, .discrepancy, .hoists, .retries, .pacer]

/-- The order in which one FRAME arrival is taken: free (log entry 7). -/
def frameOrder (k : Nat) : List FramePart := arrange Config.frameChoice 5 k allFrameParts

/-- In GUARD, and not elsewhere. -/
def inGuard (f : State → State) (s : State) : State := if s.loader.gate = .guard then f s else s

/-- Whether a group's retry counter was set at this very FRAME arrival: the group was not HELD
before it, or a cause has joined a member's set since (R102, R105). `before` is the state at its
start. -/
def State.retrySetSince (before s : State) (g : GroupNo) : Bool :=
  !before.groupHeld g || (s.members g).any fun slot =>
    decide ((before.hoist slot).map Hoist.causes ≠ (s.hoist slot).map Hoist.causes)

/-- The Group Table's count of one group at a FRAME arrival. R106 has a hold that a cause sets at
the arrival run again from the retry hold in both orders, so a counter set at the arrival is not
reduced at it: the model's reading (log entry 30). -/
def frameRetry (before : State) (g : GroupNo) (s : State) : State :=
  if before.retrySetSince s g then s else retryCount g s

/-- One part of a FRAME arrival, `before` the state at its start (R51, R106, R112, R138, R149,
R171). -/
def framePart (before : State) (p : FramePart) (s : State) : State :=
  match p with
  | .snapshot => cadenceSnapshot s
  | .discrepancy => discrepancyCount s
  | .hoists => inGuard (forEach hoistFrame allSlots) s
  | .retries => inGuard (forEach (frameRetry before) allGroups) s
  | .pacer => inGuard offerFrame s

/-- The frame count is raised, and five free values are taken for the order (R170). -/
def countFrame (s : State) : State :=
  { s with
    report := { s.report with frameCount := s.report.frameCount + 1 }
    free := s.free + 5 }

/-- A FRAME arrival, its parts in an order. -/
def frameIn (order : List FramePart) (s : State) : State :=
  let counted := countFrame s
  forEach (framePart counted) order counted

/-- FRAME_ARRIVAL; while RESET is asserted no block takes it (R4, R51). -/
def execFrameArrival (s : State) : Host.Outcome State Fault Refusal :=
  if s.lines.reset then .next s else .next (event (frameIn (frameOrder s.free)) s)

/-! ### Counts that run out -/

/-- An event that has arisen, or no effect. While RESET is asserted every count stands (R4). -/
def ifArisen (b : Bool) (f : State → State) (s : State) : Host.Outcome State Fault Refusal :=
  if b && !s.lines.reset then .next (event f s) else .next s

/-- A test of a present hoist in GUARD. -/
def State.guardHoist (s : State) (slot : Slot) (p : Hoist → Bool) : Bool :=
  decide (s.loader.gate = .guard) && match s.hoist slot with | none => false | some h => p h

/-- Whether a queue's next count reaches 256 (R113). -/
def State.serviceDue (s : State) (queue : QueueNo) : Bool :=
  decide (s.loader.gate = .guard) && !s.pacer.frozen &&
    decide (256 ≤ (s.queue queue).rate + (s.queue queue).increment.getD 0)

/-- QUEUE_SERVICE_DUE (R113). -/
def execQueueServiceDue (queue : QueueNo) (s : State) : Host.Outcome State Fault Refusal :=
  ifArisen (s.serviceDue queue) (raiseRate queue) s

/-- Whether a climbing hoist's delay counter has one count left (R51). -/
def State.windowOpens (s : State) (slot : Slot) : Bool :=
  s.guardHoist slot fun h => h.climbing && decide (h.delay = 1)

/-- CONFIRM_WINDOW_OPENS (R51). -/
def execConfirmWindowOpens (slot : Slot) (s : State) : Host.Outcome State Fault Refusal :=
  ifArisen (s.windowOpens slot) (ladderCount slot) s

/-- Whether a climbing hoist's confirm counter has one count left (R55). -/
def State.confirmRunsOut (s : State) (slot : Slot) : Bool :=
  s.guardHoist slot fun h =>
    h.climbing && decide (h.delay = 0) && decide (s.confirmFrames ≤ h.confirm + 1)

/-- CONFIRM_TIMEOUT (R55). -/
def execConfirmTimeout (slot : Slot) (s : State) : Host.Outcome State Fault Refusal :=
  ifArisen (s.confirmRunsOut slot) (ladderCount slot) s

/-- Whether a hoist's settle counter has one count left (R51). -/
def State.settleRunsOut (s : State) (slot : Slot) : Bool :=
  s.guardHoist slot fun h => decide (h.settle = 1)

/-- SETTLE_WINDOW_ENDS (R58). -/
def execSettleWindowEnds (slot : Slot) (s : State) : Host.Outcome State Fault Refusal :=
  ifArisen (s.settleRunsOut slot) (settleCount slot) s

/-- Whether a hoist parks as it stands (R60). -/
def State.parks (s : State) (slot : Slot) : Bool := s.guardHoist slot (s.mayPark slot)

/-- IDLE_PARK (R60). -/
def execIdlePark (slot : Slot) (s : State) : Host.Outcome State Fault Refusal :=
  ifArisen (s.parks slot) (parkTest slot) s

/-- Whether a hoist's status age stands at the timeout (R138). -/
def State.ageRunsOut (s : State) (slot : Slot) : Bool :=
  s.guardHoist slot fun h => decide (s.statusTimeout.getD 0 ≤ h.age)

/-- STATUS_LOST (R138). -/
def execStatusLost (slot : Slot) (s : State) : Host.Outcome State Fault Refusal :=
  ifArisen (s.ageRunsOut slot) (ageCount slot) s

/-- Whether a HELD group's retry counter has one count left (R106). -/
def State.retryRunsOut (s : State) (g : GroupNo) : Bool :=
  decide (s.loader.gate = .guard) &&
    match s.group g with
    | none => false
    | some r => decide (r.state = .held ∧ r.policy = .retry ∧ r.retry = 1)

/-- RETRY_HOLD_EXPIRY (R106). -/
def execRetryHoldExpiry (g : GroupNo) (s : State) : Host.Outcome State Fault Refusal :=
  ifArisen (s.retryRunsOut g) (retryCount g) s

/-- Whether the discrepancy count stands at 7 with the channels apart (R149). -/
def State.discrepancyDue (s : State) : Bool :=
  decide (s.halt.channelA ≠ s.halt.channelB ∧ s.halt.discrepancy + 1 = Config.discrepancyLimit)

/-- STOP_DISCREPANCY (R149). -/
def execStopDiscrepancy (s : State) : Host.Outcome State Fault Refusal :=
  ifArisen s.discrepancyDue discrepancyCount s

/-- STATISTICS_SNAPSHOT (R171). -/
def execStatisticsSnapshot (s : State) : Host.Outcome State Fault Refusal :=
  ifArisen s.atCadencePoint takeSnapshot s

end Sys2Proof.Machine
end

