-- ==== Sys2Proof/Machine/LineCommands.lean ====
section
/-! DEFINITION. The commands of the lines: STOPA, STOPB and RESET (01 R4; 09 R147, R148). -/

namespace Sys2Proof.Machine

/-- The level of a stop line. -/
def Lines.stop (l : Lines) : Channel → ChannelState
  | .a => l.stopA
  | .b => l.stopB

/-- A stop line takes a level. -/
def setStopLine (c : Channel) (x : ChannelState) (s : State) : State :=
  match c with
  | .a => { s with lines := { s.lines with stopA := x } }
  | .b => { s with lines := { s.lines with stopB := x } }

/-- A stop line breaks. While RESET is asserted the channels do not take it (R147). -/
def stopLineOpens (c : Channel) (s : State) : State :=
  let broken := setStopLine c .opened s
  if s.lines.reset ∨ s.halt.channel c = .opened then broken else channelOpens c broken

/-- A stop line is made. While RESET is asserted the channels do not take it (R147). -/
def stopLineCloses (c : Channel) (s : State) : State :=
  let made := setStopLine c .closed s
  if s.lines.reset ∨ s.halt.channel c = .closed then made else channelCloses c made

/-- STOP_CHANNEL_OPENS (R148). -/
def execStopChannelOpens (c : Channel) (s : State) : Host.Outcome State Fault Refusal :=
  if s.lines.stop c = .opened then .next s else .next (event (stopLineOpens c) s)

/-- STOP_CHANNEL_CLOSES (R148). -/
def execStopChannelCloses (c : Channel) (s : State) : Host.Outcome State Fault Refusal :=
  if s.lines.stop c = .closed then .next s else .next (event (stopLineCloses c) s)

/-! ### RESET -/

/-- The operation in flight at RESET: it completes, and nothing more comes of it (R4). -/
def State.orphanedOp (s : State) : Option PortOp :=
  s.memPort.op.map fun op => { op with live := false }

/-- The Halt Controller at RESET; the channels are taken at its release (R147). -/
def HaltController.reset (h : HaltController) : HaltController where
  channelA := h.channelA
  channelB := h.channelB
  latched := true
  causes := ⟨true, false, false, false⟩
  discrepancy := 0
  cycle := .notRequired

/-- Every block at its RESET values, with RESET asserted (R4). The motion memory, the line levels,
the words last returned and the accesses that stay on the bus are not the part's to clear. -/
def resetBlocks (s : State) : State :=
  { State.reset with
    port := { ControllerPort.reset with bus := s.port.bus, readData := s.port.readData }
    memPort := ⟨s.orphanedOp, .internal⟩
    halt := s.halt.reset
    lines := { s.lines with reset := true }
    mem := s.mem
    free := s.free
    pending := s.pending }

/-- RESET_ASSERTED (R4). -/
def execResetAsserted (s : State) : Host.Outcome State Fault Refusal :=
  if s.lines.reset then .next s else .next (event resetBlocks s)

/-- RESET falls: the channels are taken from their lines, and what stands on the bus is taken, lower
MID first (R1, R4, R147). -/
def releaseReset (s : State) : State :=
  forEach drainBus allMids
    { s with
      halt := { s.halt with channelA := s.lines.stopA, channelB := s.lines.stopB }
      lines := { s.lines with reset := false } }

/-- RESET_RELEASED (R147). -/
def execResetReleased (s : State) : Host.Outcome State Fault Refusal :=
  if s.lines.reset then .next (event releaseReset s) else .next s

end Sys2Proof.Machine
end

