-- ==== Sys2Proof/Machine/PortCommands.lean ====
section
/-! DEFINITION. The commands that complete an operation of the memory port, and the validation of a
load. A completion with no such operation in flight has no effect (log entry 12). -/

namespace Sys2Proof.Machine

/-- The operation in flight, where its claimant is one of those asked for. -/
def State.opOf (s : State) (which : Claimant → Bool) : Option PortOp :=
  s.memPort.op.filter fun op => which op.claimant

/-- The completion of an operation of such a claimant. -/
def completion (which : Claimant → Bool) (s : State) : State :=
  match s.opOf which with
  | none => s
  | some op => event (opCompletes op) s

/-- Whether a claimant is a master's access. -/
def Claimant.isPassThrough : Claimant → Bool
  | .passThrough _ => true
  | .releaseWriter => false
  | .reportWriter => false
  | .rigLoader => false

/-- PASS_THROUGH_COMPLETE (R3). -/
def execPassThroughComplete (s : State) : Host.Outcome State Fault Refusal :=
  .next (completion Claimant.isPassThrough s)

/-- RELEASE_WORD_COMPLETE (R124). -/
def execReleaseWordComplete (s : State) : Host.Outcome State Fault Refusal :=
  .next (completion (· = .releaseWriter) s)

/-- REPORT_WORD_COMPLETE (R169). -/
def execReportWordComplete (s : State) : Host.Outcome State Fault Refusal :=
  .next (completion (· = .reportWriter) s)

/-- LOAD_WORD_READ (R31). -/
def execLoadWordRead (s : State) : Host.Outcome State Fault Refusal :=
  .next (completion (· = .rigLoader) s)

/-- LOAD_VALIDATION: the candidate is tested, and the load passes or fails (R32). A held processor
write that the end of the load drops leaves its place for what waits behind it on the bus. -/
def execLoadValidation (s : State) : Host.Outcome State Fault Refusal :=
  if s.loader.phase = .validating then
    .next (event (fun s => drainBus .processor (endLoad s)) s)
  else .next s

end Sys2Proof.Machine
end

