-- ==== Sys2Proof/Machine/RequestCommands.lean ====
section
/-! DEFINITION. The commands that are requests: each is the whole processor write of its code to the
request code word, and reads the captured arguments (11 R165; log entry 10). -/

namespace Sys2Proof.Machine

/-- The access that makes a request event of a code. -/
def requestAccess (code : Word) : Access := ⟨.processor, requestCodeAddr, .write code allBytes⟩

/-- The event of the processor writing a request code. -/
def requestWrite (code : Word) (s : State) : State := event (offerAccess (requestAccess code)) s

/-- LOAD (R29). -/
def execLoad (s : State) : Host.Outcome State Fault Refusal := .next (requestWrite 1 s)

/-- RESTART (R42). -/
def execRestart (s : State) : Host.Outcome State Fault Refusal := .next (requestWrite 2 s)

/-- SET_MODE: the row for a captured argument 0 of BYPASS (R40). -/
def execSetModeBypass (s : State) : Host.Outcome State Fault Refusal := .next (requestWrite 3 s)

/-- SET_MODE: the row for a captured argument 0 of GUARD (R41). -/
def execSetModeGuard (s : State) : Host.Outcome State Fault Refusal := .next (requestWrite 3 s)

/-- UNLOCK (R162). -/
def execUnlock (s : State) : Host.Outcome State Fault Refusal := .next (requestWrite 4 s)

/-- LOCK (R163). -/
def execLock (s : State) : Host.Outcome State Fault Refusal := .next (requestWrite 5 s)

/-- GO (R75, R76). -/
def execGo (s : State) : Host.Outcome State Fault Refusal := .next (requestWrite 6 s)

/-- CLEAR_STAGE (R79). -/
def execClearStage (s : State) : Host.Outcome State Fault Refusal := .next (requestWrite 7 s)

/-- WITHDRAW (R80). -/
def execWithdraw (s : State) : Host.Outcome State Fault Refusal := .next (requestWrite 8 s)

/-- SET_GOAL_MODE (R74). -/
def execSetGoalMode (s : State) : Host.Outcome State Fault Refusal := .next (requestWrite 9 s)

/-- POWER (R64, R65). -/
def execPower (s : State) : Host.Outcome State Fault Refusal := .next (requestWrite 10 s)

/-- CLEAR_FAULT: the row for a captured subject kind of HOIST (R143, R144). -/
def execClearFaultHoist (s : State) : Host.Outcome State Fault Refusal := .next (requestWrite 11 s)

/-- CLEAR_FAULT: the row for a captured subject kind of GROUP (R108). -/
def execClearFaultGroup (s : State) : Host.Outcome State Fault Refusal := .next (requestWrite 11 s)

/-- RESUME (R157, R158). -/
def execResume (s : State) : Host.Outcome State Fault Refusal := .next (requestWrite 12 s)

/-- SET_RATE (R127). -/
def execSetRate (s : State) : Host.Outcome State Fault Refusal := .next (requestWrite 13 s)

/-- SET_TRIM (R128). -/
def execSetTrim (s : State) : Host.Outcome State Fault Refusal := .next (requestWrite 14 s)

/-- SNAPSHOT_STATS (R172). -/
def execSnapshotStats (s : State) : Host.Outcome State Fault Refusal := .next (requestWrite 15 s)

/-- UNKNOWN_REQUEST: a code that names no request (R165). -/
def execUnknownRequest (code : Word) (s : State) : Host.Outcome State Fault Refusal :=
  .next (requestWrite code s)

end Sys2Proof.Machine
end

