-- ==== Sys2Proof/Machine/Dispatch.lean ====
section
/-! DEFINITION. The meaning of every command, one arm each. -/

namespace Sys2Proof.Machine

def exec (i : Instr) (s : State) : Host.Outcome State Fault Refusal :=
  match i with
  | .accessArrival a => Sys2Proof.Machine.execAccessArrival a s
  | .goalWrite addr goal => Sys2Proof.Machine.execGoalWrite addr goal s
  | .gridWrite addr goal => Sys2Proof.Machine.execGridWrite addr goal s
  | .statusWordWrite addr data enables => Sys2Proof.Machine.execStatusWordWrite addr data enables s
  | .statusArrival addr data enables => Sys2Proof.Machine.execStatusArrival addr data enables s
  | .keyWordWrite n data enables => Sys2Proof.Machine.execKeyWordWrite n data enables s
  | .load => Sys2Proof.Machine.execLoad s
  | .restart => Sys2Proof.Machine.execRestart s
  | .setModeBypass => Sys2Proof.Machine.execSetModeBypass s
  | .setModeGuard => Sys2Proof.Machine.execSetModeGuard s
  | .unlock => Sys2Proof.Machine.execUnlock s
  | .lock => Sys2Proof.Machine.execLock s
  | .go => Sys2Proof.Machine.execGo s
  | .clearStage => Sys2Proof.Machine.execClearStage s
  | .withdraw => Sys2Proof.Machine.execWithdraw s
  | .setGoalMode => Sys2Proof.Machine.execSetGoalMode s
  | .power => Sys2Proof.Machine.execPower s
  | .clearFaultHoist => Sys2Proof.Machine.execClearFaultHoist s
  | .clearFaultGroup => Sys2Proof.Machine.execClearFaultGroup s
  | .resume => Sys2Proof.Machine.execResume s
  | .setRate => Sys2Proof.Machine.execSetRate s
  | .setTrim => Sys2Proof.Machine.execSetTrim s
  | .snapshotStats => Sys2Proof.Machine.execSnapshotStats s
  | .unknownRequest code => Sys2Proof.Machine.execUnknownRequest code s
  | .passThroughComplete => Sys2Proof.Machine.execPassThroughComplete s
  | .releaseWordComplete => Sys2Proof.Machine.execReleaseWordComplete s
  | .reportWordComplete => Sys2Proof.Machine.execReportWordComplete s
  | .loadWordRead => Sys2Proof.Machine.execLoadWordRead s
  | .loadValidation => Sys2Proof.Machine.execLoadValidation s
  | .frameArrival => Sys2Proof.Machine.execFrameArrival s
  | .queueServiceDue queue => Sys2Proof.Machine.execQueueServiceDue queue s
  | .confirmWindowOpens slot => Sys2Proof.Machine.execConfirmWindowOpens slot s
  | .confirmTimeout slot => Sys2Proof.Machine.execConfirmTimeout slot s
  | .settleWindowEnds slot => Sys2Proof.Machine.execSettleWindowEnds slot s
  | .idlePark slot => Sys2Proof.Machine.execIdlePark slot s
  | .statusLost slot => Sys2Proof.Machine.execStatusLost slot s
  | .retryHoldExpiry g => Sys2Proof.Machine.execRetryHoldExpiry g s
  | .stopDiscrepancy => Sys2Proof.Machine.execStopDiscrepancy s
  | .statisticsSnapshot => Sys2Proof.Machine.execStatisticsSnapshot s
  | .stopChannelOpens c => Sys2Proof.Machine.execStopChannelOpens c s
  | .stopChannelCloses c => Sys2Proof.Machine.execStopChannelCloses c s
  | .resetAsserted => Sys2Proof.Machine.execResetAsserted s
  | .resetReleased => Sys2Proof.Machine.execResetReleased s

end Sys2Proof.Machine
end

