-- ==== Sys2Proof/Effects/Blocks.lean ====
section
/-! DEFINITION. How the words of a configuration block give its fields (R22 to R27, R173), and what
each of the sixteen steps of validation tests, field by field in the order of its scan (R32 to
R36). -/

namespace Sys2Proof.Machine

/-! ### Fields (R22 to R27, R173) -/

/-- Some bits of a word as a number: from bit `low`, `count` of them. -/
def bitsOf (w : Word) (low count : Nat) : Nat := (w.extractLsb' low count).toNat

/-- The fields of group entry g, at 080h + 8 × g (R26, R173). -/
structure GroupFields (ws : List Word) (g : Nat) (e : GroupEntry) : Prop where
  inUse : e.inUse = (wordAt ws (0x80 + 8 * g)).getLsbD 0
  count : e.count = bitsOf (wordAt ws (0x80 + 8 * g)) 8 4
  queue : e.queue = bitsOf (wordAt ws (0x80 + 8 * g)) 16 3
  retries : e.retries = (wordAt ws (0x80 + 8 * g)).getLsbD 24
  positions : e.positions =
    (List.range 8).map fun i => bitsOf (wordAt ws (0x80 + 8 * g + 1 + i / 4)) (8 * (i % 4)) 8
  members : e.members = e.positions.take e.count
  tolerance : e.tolerance = bitsOf (wordAt ws (0x80 + 8 * g + 3)) 0 16
  retryHold : e.retryHold = bitsOf (wordAt ws (0x80 + 8 * g + 4)) 0 8
  echo : e.echo = (wordAt ws (0x80 + 8 * g + 7)).toNat
  words : ∀ n, n < 8 → wordAt e.words n = wordAt ws (0x80 + 8 * g + n)

/-- The fields of hoist entry s, at 180h + 8 × s (R27, R173). -/
structure HoistFields (ws : List Word) (slot : Nat) (e : HoistEntry) : Prop where
  present : e.present = (wordAt ws (0x180 + 8 * slot)).getLsbD 0
  group : e.group = bitsOf (wordAt ws (0x180 + 8 * slot)) 8 8
  queue : e.queue = bitsOf (wordAt ws (0x180 + 8 * slot)) 16 3
  ratio : e.ratio = bitsOf (wordAt ws (0x180 + 8 * slot)) 20 4
  step : e.step = bitsOf (wordAt ws (0x180 + 8 * slot)) 24 8
  lower : e.lower = (wordAt ws (0x180 + 8 * slot + 1)).toNat
  upper : e.upper = (wordAt ws (0x180 + 8 * slot + 2)).toNat
  overload : e.overload = bitsOf (wordAt ws (0x180 + 8 * slot + 3)) 0 16
  slack : e.slack = bitsOf (wordAt ws (0x180 + 8 * slot + 3)) 16 16
  follow : e.follow = bitsOf (wordAt ws (0x180 + 8 * slot + 4)) 0 16
  band : e.band = bitsOf (wordAt ws (0x180 + 8 * slot + 4)) 16 16
  wake : e.wake = bitsOf (wordAt ws (0x180 + 8 * slot + 5)) 0 9
  brake : e.brake = bitsOf (wordAt ws (0x180 + 8 * slot + 5)) 16 9
  echo : e.echo = (wordAt ws (0x180 + 8 * slot + 7)).toNat
  words : ∀ n, n < 8 → wordAt e.words n = wordAt ws (0x180 + 8 * slot + n)

/-- The fields of a block from its 1,408 words, and what is installed of them (R22 to R27, R173). -/
structure BlockFields (ws : List Word) (b : RigBlock) : Prop where
  all : b.all = ws
  header : ∀ n, n < 16 → wordAt b.header n = wordAt ws n ∧ b.setting n = (wordAt ws n).toNat
  queues : ∀ n, n < 8 → wordAt b.queues n = wordAt ws (0x10 + n)
  regions : ∀ n, n < 24 → b.regionWord n = (wordAt ws (0x18 + n)).toNat
  ring : b.ring = ⟨(wordAt ws 0x1B).toNat, (wordAt ws 0x1C).toNat⟩
  geometry : b.showRows = (wordAt ws 0x30).toNat ∧ b.showColumns = (wordAt ws 0x31).toNat
  rotation : (wordAt ws 0x32 = 0 → b.gridSettings.rotation = .none0) ∧
    (wordAt ws 0x32 = 90 → b.gridSettings.rotation = .quarter90) ∧
    (wordAt ws 0x32 = 180 → b.gridSettings.rotation = .half180) ∧
    (wordAt ws 0x32 = 270 → b.gridSettings.rotation = .threeQuarter270)
  mirror : b.gridSettings.mirror = decide (wordAt ws 0x33 = 1)
  rows : b.gridSettings.rows = b.showRows ∧ b.gridSettings.columns = b.showColumns
  /-- Byte i of the venue map lies in word 034h + i div 4, at bits 8 × (i mod 4). -/
  venue : b.venueBytes.length = 256 ∧
    ∀ i, i < 256 → b.venueBytes[i]? = some (bitsOf (wordAt ws (0x34 + i / 4)) (8 * (i % 4)) 8)
  cells : b.gridSettings.venue = (b.venueBytes.take (b.showRows * b.showColumns)).map fun v =>
    if v = 255 then none else some (Fin.ofNat 128 v)
  password : ∀ n : Fin 4, b.passwordWords[n] = wordAt ws (0x74 + n.val)
  passwordZeros : ∀ n, n < 12 → wordAt b.password n = wordAt ws (0x74 + n)
  groupCount : b.groups.length = 32
  groups : ∀ g e, b.groups[g]? = some e → GroupFields ws g e
  hoistCount : b.hoists.length = 128
  hoists : ∀ slot e, b.hoists[slot]? = some e → HoistFields ws slot e

/-- The region map of a block: each region with extent by its entry, with its length (R24). -/
def mapOfBlock (b : RigBlock) : List Region :=
  let user (i : Nat) : Region :=
    ⟨.user (b.regionWord (8 + 3 * i) % 2 = 1) (b.regionWord (8 + 3 * i) / 2 % 2 = 1),
      b.regionWord (6 + 3 * i), b.regionWord (7 + 3 * i)⟩
  [⟨.setpoint, b.regionWord 0, 512⟩, ⟨.status, b.regionWord 1, 512⟩,
    ⟨.grid, b.regionWord 2, b.showRows * b.showColumns⟩,
    ⟨.ring, b.regionWord 3, 4 * b.regionWord 4⟩, ⟨.statistics, b.regionWord 5, 64⟩,
    user 0, user 1, user 2, user 3].filter fun r => r.length ≠ 0

/-! ### Tests (R32 to R36) -/

/-- One test of a step: the detail it gives, and whether the field offends. -/
structure BlockTest where
  detail : LoadDetail
  offends : Bool

/-- Tests of a section's entries `lo` to `hi - 1`, in rising order. -/
def testsOf (part : BlockSection) (lo hi : Nat) (offends : Nat → Bool) : List BlockTest :=
  (List.range hi).filterMap fun n =>
    if lo ≤ n then some ⟨⟨part, n⟩, offends n⟩ else none

/-- The range of each header word that step 3 tests (R22, R33). -/
def headerRange : Nat → Option (Nat × Nat)
  | 0 => none
  | 1 => none
  | 2 => none
  | 3 => some (400001, 4294967295)
  | 4 => some (0, 1)
  | 5 => some (1, 8)
  | 6 => some (1, 255)
  | 7 => some (1, 255)
  | 8 => some (0, 65535)
  | 9 => some (0, 255)
  | 10 => some (1, 15)
  | 11 => some (0, 15)
  | _ => some (0, 0)

/-- A number outside a range. -/
def outside (lo hi n : Nat) : Bool := n < lo || hi < n

/-- The group entry and the hoist entry of a number. -/
def RigBlock.groupTest (b : RigBlock) (offends : GroupEntry → Bool) (g : Nat) : Bool :=
  (b.groups[g]?).any offends

def RigBlock.hoistTest (b : RigBlock) (offends : HoistEntry → Bool) (slot : Nat) : Bool :=
  (b.hoists[slot]?).any offends

/-- A bit of a word that none of its fields names. -/
def unnamedBit (w : Word) (named : Nat → Bool) : Bool :=
  (List.range 32).any fun n => w.getLsbD n && !named n

/-- Step 3 of a group entry: ranges and must-be-zero bits of one in use, zeros of one that is not
(R26, R33). -/
def groupFormatBad (e : GroupEntry) : Bool :=
  if e.inUse then
    unnamedBit (wordAt e.words 0)
        (fun n => n = 0 || (8 ≤ n && n ≤ 11) || (16 ≤ n && n ≤ 18) || n = 24) ||
      outside 1 65535 (wordAt e.words 3).toNat || outside 1 255 (wordAt e.words 4).toNat ||
      wordAt e.words 5 ≠ 0 || wordAt e.words 6 ≠ 0
  else (List.range 7).any fun n => wordAt e.words n ≠ 0

/-- Step 3 of a hoist entry (R27, R33). -/
def hoistFormatBad (e : HoistEntry) : Bool :=
  if e.present then
    unnamedBit (wordAt e.words 0)
        (fun n => n = 0 || (8 ≤ n && n ≤ 15) || (16 ≤ n && n ≤ 18) || 20 ≤ n) ||
      (31 < e.group && e.group ≠ 255) || outside 1 8 e.ratio || outside 1 255 e.step ||
      400000 < e.lower || 400000 < e.upper || outside 1 65535 e.overload ||
      (e.slack ≠ 0 && e.overload ≤ e.slack) || outside 1 65535 e.follow ||
      unnamedBit (wordAt e.words 5) (fun n => n ≤ 8 || (16 ≤ n && n ≤ 24)) || wordAt e.words 6 ≠ 0
  else (List.range 7).any fun n => wordAt e.words n ≠ 0

/-- Step 3 of a user region: its length, its attributes, and zeros where it is not in use (R24,
R33). -/
def userFormatBad (base length attributes : Nat) : Bool :=
  65536 < length || 3 < attributes || (length = 0 && (base ≠ 0 || attributes ≠ 0))

/-- Base and length of a region entry as written (R24, R34). -/
def RigBlock.placed (b : RigBlock) (entry : Nat) : Nat × Nat :=
  match entry with
  | 0 => (b.regionWord 0, 512)
  | 1 => (b.regionWord 1, 512)
  | 2 => (b.regionWord 2, b.showRows * b.showColumns)
  | 3 => (b.regionWord 3, 4 * b.regionWord 4)
  | 4 => (b.regionWord 5, 64)
  | n => (b.regionWord (6 + 3 * (n - 5)), b.regionWord (7 + 3 * (n - 5)))

/-- Two regions with extent that share a word. -/
def shared (r q : Nat × Nat) : Bool :=
  0 < r.2 && 0 < q.2 && r.1 < q.1 + q.2 && q.1 < r.1 + r.2

/-- The member positions of an in-use group that stand before position n of group g: those of lower
numbered groups, and its own earlier ones (R35). -/
def RigBlock.listedBefore (b : RigBlock) (g n : Nat) : List Nat :=
  ((List.range g).flatMap fun k => match b.groups[k]? with
    | none => []
    | some e => if e.inUse then e.members else []) ++
  match b.groups[g]? with
  | none => []
  | some e => e.members.take n

/-- Position n of in-use group g fails step 11 (R35). -/
def RigBlock.memberFails (b : RigBlock) (g n v : Nat) : Bool :=
  (b.listedBefore g n).contains v ||
    !b.hoistTest (fun h => h.present && h.group = g) v

/-- The members of a group that are entries of the block. -/
def RigBlock.entriesOf (b : RigBlock) (e : GroupEntry) : List HoistEntry :=
  e.members.filterMap fun v => b.hoists[v]?

/-- The venue byte of an index. -/
def RigBlock.venueByte (b : RigBlock) (i : Nat) : Nat := b.venueBytes.getD i 255

/-- The tests of each step, in the order in which the step takes them (R32 to R36). -/
def RigBlock.tests (b : RigBlock) : LoadStep → List BlockTest
  | .badMagic => [⟨⟨.header, 0⟩, b.setting 0 ≠ 0x52494731⟩]
  | .badChecksum => [⟨⟨.header, 1⟩, (b.all.map BitVec.toNat).sum % 4294967296 ≠ 0⟩]
  | .badFormat =>
    testsOf .header 0 16 (fun n => (headerRange n).any fun r => outside r.1 r.2 (b.setting n)) ++
      testsOf .queues 0 8 (fun q => outside 0 256 (wordAt b.queues q).toNat) ++
      testsOf .regions 5 9 (fun n => userFormatBad (b.placed n).1 (b.placed n).2
        (b.regionWord (8 + 3 * (n - 5)))) ++
      testsOf .regions 9 10 (fun _ => (List.range 6).any fun n => b.regionWord (18 + n) ≠ 0) ++
      testsOf .grid 256 257 (fun _ =>
        !([0, 90, 180, 270].contains (wordAt b.grid 2).toNat) || 1 < (wordAt b.grid 3).toNat) ++
      testsOf .grid 0 256 (fun i => 127 < b.venueByte i && b.venueByte i ≠ 255) ++
      testsOf .password 4 12 (fun n => wordAt b.password n ≠ 0) ++
      testsOf .groups 0 32 (b.groupTest groupFormatBad) ++
      testsOf .hoists 0 128 (b.hoistTest hoistFormatBad)
  | .entryMisplaced =>
    testsOf .groups 0 32 (fun g => b.groupTest (fun e => e.echo ≠ g) g) ++
      testsOf .hoists 0 128 (fun slot => b.hoistTest (fun e => e.echo ≠ slot) slot)
  | .regionRange =>
    testsOf .regions 0 9 fun n =>
      0 < (b.placed n).2 && 0x3FEFFF < (b.placed n).1 + (b.placed n).2 - 1
  | .regionOverlap =>
    testsOf .regions 0 9 fun n => (List.range n).any fun k => shared (b.placed n) (b.placed k)
  | .ringSize => [⟨⟨.regions, 3⟩, outside 16 1024 (b.regionWord 4)⟩]
  | .limitsInverted =>
    testsOf .hoists 0 128 (b.hoistTest fun e => e.present && e.upper ≤ e.lower)
  | .queueDisabled =>
    testsOf .hoists 0 128 (b.hoistTest fun e => e.present && wordAt b.queues e.queue = 0)
  | .groupSize =>
    testsOf .groups 0 32 (b.groupTest fun e => e.inUse &&
      (outside 1 8 e.count || (List.range 8).any fun n =>
        e.count ≤ n && e.positions.getD n 255 ≠ 255))
  | .groupMember =>
    testsOf .groups 0 32 (fun g => b.groupTest (fun e => e.inUse &&
        (List.range e.members.length).any fun n => b.memberFails g n (e.members.getD n 255)) g) ++
      testsOf .hoists 0 128 (fun slot => b.hoistTest (fun h => h.present && h.group < 32 &&
        !b.groupTest (fun e => e.inUse && e.members.contains slot) h.group) slot)
  | .groupMismatch =>
    testsOf .groups 0 32 (b.groupTest fun e => e.inUse &&
      (b.entriesOf e).any fun m => m.queue ≠ e.queue || (b.entriesOf e).head?.any fun first =>
        m.step ≠ first.step || m.band ≠ first.band || m.ratio ≠ first.ratio)
  | .budget =>
    ⟨⟨.header, 2⟩, outside 4 128 (b.setting 2)⟩ ::
      testsOf .groups 0 32 (b.groupTest fun e => e.inUse && b.setting 2 < e.count)
  | .gridSize =>
    ⟨⟨.grid, 256⟩, outside 1 16 b.showRows || outside 1 16 b.showColumns⟩ ::
      testsOf .grid (b.showRows * b.showColumns) 256 (fun i => b.venueByte i ≠ 255)
  | .gridDuplicate =>
    testsOf .grid 0 (min 256 (b.showRows * b.showColumns)) fun i =>
      b.venueByte i ≠ 255 && (List.range i).any fun k => b.venueByte k = b.venueByte i
  | .gridAbsent =>
    testsOf .grid 0 (min 256 (b.showRows * b.showColumns)) fun i =>
      b.venueByte i ≠ 255 && !b.hoistTest HoistEntry.present (b.venueByte i)

/-- The detail of the first test that a step fails. -/
def RigBlock.firstOffence (b : RigBlock) (step : LoadStep) : Option LoadDetail :=
  ((b.tests step).find? BlockTest.offends).map BlockTest.detail

end Sys2Proof.Machine
end

