-- ==== Sys2Proof/Safety.lean ====
section
/-! DEFINITION. The words the statements are made of: what a command leaves unchanged, when a
request is taken and how it is answered, and the invariants of the part. -/

namespace Sys2Proof.Machine

/-! ### Frames -/

/-- A part of the state, for saying what a command leaves unchanged. Left out are the places and
the order of waiting accesses, the memory port, the Report Writer's claims and the output lines:
the end of every event may move them. -/
inductive Part
  | memory
  | regions
  | loader
  | lock
  | hoists
  | limits
  | groups
  | goals
  | grid
  | pacer
  | batches
  | halt
  | requests
  | captured
  | statusCopies
  | bus
  | readData
  | faultQueue
  | ring
  | counters
  | frameCount
  | statistics
  | lineLevels
  | free
  | commands
  deriving DecidableEq, Repr

/-- What the grant of a word does not change in a batch in hand. -/
def BatchInHand.content (h : BatchInHand) : BitVec 16 × List SetpointRecord × Bool :=
  (h.number, h.records, h.abandoned)

/-- A part reads the same in two states; memory by its bytes, as a read sees it. -/
def samePart (s t : State) : Part → Prop
  | .memory => ∀ a, Memory.read t.mem a = Memory.read s.mem a
  | .regions => t.regions = s.regions
  | .loader => t.loader = s.loader
  | .lock => t.lock = s.lock
  | .hoists => t.hoists = s.hoists
  | .limits =>
    t.confirmLimit = s.confirmLimit ∧ t.idlePark = s.idlePark ∧ t.statusTimeout = s.statusTimeout
  | .groups => t.groups = s.groups
  | .goals => t.goals = s.goals
  | .grid => t.grid = s.grid
  | .pacer => t.pacer = s.pacer
  | .batches =>
    t.writer.owed = s.writer.owed ∧ t.writer.following = s.writer.following ∧
      t.writer.hand.map BatchInHand.content = s.writer.hand.map BatchInHand.content
  | .halt => t.halt = s.halt
  | .requests => t.requests = s.requests
  | .captured => t.port.requestCode = s.port.requestCode ∧ t.port.arguments = s.port.arguments
  | .statusCopies => t.port.status = s.port.status
  | .bus => t.port.bus = s.port.bus
  | .readData => t.port.readData = s.port.readData
  | .faultQueue => t.report.queue = s.report.queue ∧ t.report.dropped = s.report.dropped
  | .ring =>
    t.report.ring = s.report.ring ∧ t.report.writeIndex = s.report.writeIndex ∧
      t.report.lastSequence = s.report.lastSequence
  | .counters => t.report.counters = s.report.counters
  | .frameCount => t.report.frameCount = s.report.frameCount
  | .statistics =>
    t.report.cadence = s.report.cadence ∧ t.report.statsRequest = s.report.statsRequest
  | .lineLevels =>
    t.lines.stopA = s.lines.stopA ∧ t.lines.stopB = s.lines.stopB ∧ t.lines.reset = s.lines.reset
  | .free => t.free = s.free
  | .commands => t.pending = s.pending

/-- Every part but those named reads the same. -/
structure KeepsAllBut (changed : List Part) (s t : State) : Prop where
  same : ∀ p : Part, p ∉ changed → samePart s t p

/-! ### Events with no effect of their own pending -/

/-- No request is answered between events, and while RESET is asserted the gate is UNCONFIGURED, no
load is in hand, and the operation in flight belongs to no claimant any more (R4, R28, R166). -/
def RestsBetweenEvents (s : State) : Prop :=
  (∀ r, s.requests.state ≠ .answered r) ∧
    (s.lines.reset = true →
      s.loader.gate = .unconfigured ∧ s.loader.phase = .idle ∧
        ∀ op, s.memPort.op = some op → op.live = false)

/-! ### Fault records and counters -/

/-- A fault record handed to the Report Writer (R168): with a configuration installed it joins the
queue, or is counted as dropped where the queue holds 32 records; otherwise it is discarded. -/
def handOver (gate : GateMode) (q : List FaultRecord × Nat) (r : FaultRecord) :
    List FaultRecord × Nat :=
  if gate.installed then
    if q.1.length < 32 then (q.1 ++ [r], q.2) else (q.1, min (q.2 + 1) 4294967295)
  else q

/-- The fault records of an event, handed over in order. -/
def Handed (rs : List FaultRecord) (s t : State) : Prop :=
  (t.report.queue, t.report.dropped) =
    rs.foldl (handOver s.loader.gate) (s.report.queue, s.report.dropped)

/-- Each counter is raised by 1 as often as the list names it; the others stand. -/
def Counted (cs : List Counter) (s t : State) : Prop :=
  ∀ k : Fin 32, t.report.counters[k] =
    s.report.counters[k] + BitVec.ofNat 32 (cs.countP fun c => counterIndex c = k)

/-! ### Movers -/

/-- Whether a resume point stands at one of some movers. -/
def resumesAt (ms : List Mover) : Option ResumePoint → Bool
  | some (.mover m) => m ∈ ms
  | some .tail => false
  | none => false

/-- The resume point of a queue whose list some movers leave: where its mover leaves, the next mover
of the list that stays, or END where none does (R119). -/
def PacingQueue.resumeWithout (ms : List Mover) (q : PacingQueue) : Option ResumePoint :=
  match q.resume with
  | some (.mover m) =>
    match (q.movers.dropWhile (· ≠ m)).find? (· ∉ ms) with
    | some next => some (.mover next)
    | none => some .tail
  | some .tail => some .tail
  | none => none

/-- Some movers leave a queue's list: a resume point that stands at none of them stays, and one at a
mover of the list, with each mover in it once, goes on to the next that stays (R119). -/
def ResumesWithout (ms : List Mover) (q q' : PacingQueue) : Prop :=
  (resumesAt ms q.resume = false → q'.resume = q.resume) ∧
    (q.movers.Nodup → (∀ m, q.resume = some (.mover m) → m ∈ q.movers) →
      q'.resume = q.resumeWithout ms)

/-- Some movers leave every list (R119). -/
def Unlinked (ms : List Mover) (s t : State) : Prop :=
  ∀ q, (t.queue q).movers = (s.queue q).movers.filter (fun m => m ∉ ms) ∧
    (t.queue q).rate = (s.queue q).rate ∧ (t.queue q).due = (s.queue q).due ∧
    (t.queue q).increment = (s.queue q).increment ∧
    ResumesWithout ms (s.queue q) (t.queue q)

/-- Every MOVING group among some movers is IDLE, and no other group record changes (R98). -/
def GroupsStopped (ms : List Mover) (s t : State) : Prop :=
  ∀ g, t.group g = (s.group g).map fun r =>
    if .group g ∈ ms ∧ r.state = .moving then { r with state := .idle } else r

/-- The Pacer but for its queues and the batch number. -/
def PacerSettingsStand (s t : State) : Prop :=
  t.pacer.nextStartA = s.pacer.nextStartA ∧ t.pacer.nextStartB = s.pacer.nextStartB ∧
    t.pacer.budget = s.pacer.budget ∧ t.pacer.reversalDwell = s.pacer.reversalDwell ∧
    t.pacer.trim = s.pacer.trim ∧ t.pacer.pendingFrame = s.pacer.pendingFrame ∧
    t.pacer.frozen = s.pacer.frozen

/-! ### Hoists -/

/-- Every present hoist's record becomes what `f` gives, and no slot gains or loses one. -/
def HoistsBecome (f : Slot → Hoist → Hoist) (s t : State) : Prop :=
  ∀ slot, t.hoist slot = (s.hoist slot).map (f slot)

/-- A hoist that takes run demand: OFF wakes, STANDBY goes to RELEASING where the conditions of
R53 hold, and RUN takes none (R49, R50, R53). -/
def Hoist.wanted (s : State) (h : Hoist) : Hoist :=
  match h.power with
  | .run => h
  | .off => { h.wake with runDemand := true }
  | .standby =>
    if s.mayRelease { h with runDemand := true } then
      Hoist.release { h with runDemand := true }
    else { h with runDemand := true }
  | .waking => { h with runDemand := true }
  | .releasing => { h with runDemand := true }

/-! ### Batches -/

/-- A batch of some records, with the next batch number, is in hand of the Release Writer, which had
none. -/
def BatchStarted (records : List SetpointRecord) (s t : State) : Prop :=
  t.pacer.batchNumber = s.pacer.batchNumber + 1 ∧ t.writer.state ≠ .idle ∧
    t.writer.hand.map BatchInHand.content = some (s.pacer.batchNumber + 1, records, false) ∧
    t.writer.owed = s.writer.owed ∧ t.writer.following = s.writer.following

/-- No batch is composed and none is owed anew. -/
def NoBatch (s t : State) : Prop :=
  t.pacer.batchNumber = s.pacer.batchNumber ∧ samePart s t .batches

/-- An owed batch joins the end of the owed list. -/
def BatchOwed (b : OwedBatch) (s t : State) : Prop :=
  t.pacer.batchNumber = s.pacer.batchNumber ∧ t.writer.owed = s.writer.owed ++ [b] ∧
    t.writer.following = s.writer.following ∧
    t.writer.hand.map BatchInHand.content = s.writer.hand.map BatchInHand.content

/-! ### Requests -/

/-- A request event is taken: RESET is low, the processor's place is EMPTY with nothing of its own
on the bus, and the request state is IDLE (R1, R4, R165). -/
def State.requestReady (s : State) : Prop :=
  s.accepts .processor = true ∧ s.requests.state = .idle

/-- The request code is captured, the arguments stand, and the write goes on to memory (R2, R13). -/
def RequestCaptured (code : Word) (s t : State) : Prop :=
  t.port.requestCode = code ∧ t.port.arguments = s.port.arguments ∧
    t.port.places.processor = .waiting ⟨.processor, requestCodeAddr, .write code allBytes⟩

/-- A request of a code stays in hand, with its arguments (R165). -/
def InHand (code : Word) (s t : State) : Prop :=
  t.requests.state = .inHand ⟨code, s.port.arguments⟩ ∧ t.requests.result = s.requests.result ∧
    t.requests.detail = s.requests.detail ∧ RequestCaptured code s t

/-- A request waits for exactly these writes: those of both result words, and of every other
part-owned word but 12h that is dirty at the end of its result event, from before it or made so by
it (R166). That is before the Report Writer's claim of that moment, which the write of a word it
claims then still serves; a claim made before the event serves no request (log entry 25). -/
def RequestState.closes (x : RequestState) (r : Request) (s t : State) : Prop :=
  match x with
  | .closing q awaited =>
    q = r ∧ ∀ i : Fin 16, awaited[i] = (decide (i ≠ 2) &&
      (decide (i < 2) || s.report.dirty[i] || decide (s.mirror i ≠ t.mirror i)))
  | .idle => False
  | .inHand _ => False
  | .answered _ => False

/-- A request of a code is answered: its result stands, and the request stays PENDING until the
words it waits for are written (R166). -/
def Answered (code : Word) (result : ResultCode) (detail : Word) (s t : State) : Prop :=
  t.requests.result = result ∧ t.requests.detail = detail ∧
    t.requests.state.closes ⟨code, s.port.arguments⟩ s t ∧ RequestCaptured code s t

/-- A request answered at once, with no other effect. -/
def Refused (code : Word) (result : ResultCode) (detail : Word) (s t : State) : Prop :=
  Answered code result detail s t ∧ KeepsAllBut [.requests, .captured] s t

/-! ### Invariants -/

/-- The drive command of every hoist follows its power state (R46). -/
def CommandsFollowPower (s : State) : Prop :=
  ∀ slot h, s.hoist slot = some h → h.command = commandOf h.power

/-- The output lines show their conditions (R21, R155, R156). -/
def LinesShow (s : State) : Prop :=
  s.lines.enable = s.enabled ∧ s.lines.fault = s.inTrouble ∧
    ∀ m, s.lines.wait.get m = s.mustWait m

/-- The fault report queue holds at most 32 records, and in GUARD and BYPASS records are counted as
dropped only while it is full (R168). -/
def QueueBounded (s : State) : Prop :=
  s.report.queue.length ≤ Config.reportQueueDepth ∧
    (s.loader.gate.installed = true → 0 < s.report.dropped →
      s.report.queue.length = Config.reportQueueDepth)

/-- The lock state is NO_PASSWORD, and no password is installed, exactly while the gate is
UNCONFIGURED or LOADING (R159). -/
def LockFollowsGate (s : State) : Prop :=
  (s.lock.state = .noPassword ↔ s.loader.gate.installed = false) ∧
    (s.lock.password = none ↔ s.loader.gate.installed = false)

/-- Each queue's rate counter lies between 0 and 255, and its increment is at most 256 (R113). -/
def RatesInRange (s : State) : Prop :=
  ∀ q, (s.queue q).rate < 256 ∧ (s.queue q).increment.getD 0 ≤ 256

/-- At most one staging entry for a slot, each within the slot's soft limits (R69). -/
def StagingSound (s : State) : Prop :=
  (s.goals.staging.map StagingEntry.slot).Nodup ∧
    ∀ e ∈ s.goals.staging, ∃ h, s.hoist e.slot = some h ∧ h.lowerLimit ≤ e.goal ∧
      e.goal ≤ h.upperLimit

/-- While no configuration is installed, nothing of one stands: no configured region, hoist, group,
staged goal, grid, batch or linked mover (R5, R43, R45, R66, R95, R111, R124). -/
def BlankUnlessInstalled (s : State) : Prop :=
  s.loader.gate.installed = false →
    s.regions = [] ∧ (∀ slot, s.hoist slot = none) ∧ (∀ g, s.group g = none) ∧
      s.goals.staging = [] ∧ s.grid = none ∧ s.writer = .clear ∧ ∀ q, s.queue q = .clear

/-- The load phase is IDLE outside LOADING (R28). -/
def PhaseFollowsGate (s : State) : Prop := s.loader.phase ≠ .idle → s.loader.gate = .loading

/-- While a batch is in progress, no drive link engine read of the setpoint area is in
WAITING_PORT, so none completes (R9). -/
def SetpointReadsHeld (s : State) : Prop :=
  s.writer.state = .writing → s.waitingSetpointRead = none

/-- An IDLE Release Writer has no batch in hand (R124). -/
def IdleWriterEmpty (s : State) : Prop := s.writer.state = .idle → s.writer.hand = none

/-- An owed batch names each slot once (R121, R125). -/
def OwedSlotsOnce (s : State) : Prop :=
  ∀ o ∈ s.writer.owed, match o with
    | .hold slots => slots.Nodup
    | .sync slots => slots.Nodup

/-- The drive link engine's held access, if there is one, is its read of the setpoint area (R9). -/
def HeldSetpointRead (s : State) : Prop :=
  match s.port.places.driveLink with
  | .held a => a.mid = .driveLink ∧ a.op = .read ∧ s.inSetpointArea a.addr = true
  | .empty => True
  | .waiting _ => True

/-- Each place holds an access of its own master, and what stays on a master's bus is its own (R1).
-/
def AccessesWithTheirMasters (s : State) : Prop :=
  ∀ m, (∀ a, s.port.places.get m = .held a ∨ s.port.places.get m = .waiting a → a.mid = m) ∧
    ∀ a ∈ s.port.bus.get m, a.mid = m

/-- Every configured region has extent and lies within 000000h to 3FEFFFh, and no two share a word
(R5, R24, R34). -/
def RegionsApart (s : State) : Prop :=
  (∀ r ∈ s.regions, 0 < r.length ∧ r.base + r.length ≤ 0x3FF000) ∧
    s.regions.Pairwise fun r q => r.base + r.length ≤ q.base ∨ q.base + q.length ≤ r.base

/-- What keeps the drive link engine's reads whole, with what it needs to be kept by a step. -/
def ReadsWhole (s : State) : Prop :=
  BlankUnlessInstalled s ∧ PhaseFollowsGate s ∧ IdleWriterEmpty s ∧ SetpointReadsHeld s

/-- In GUARD no hoist is RELEASING or RUN while the condition of ENABLE does not hold (R53, R61). -/
def BrakedUnlessEnabled (s : State) : Prop :=
  s.loader.gate = .guard → s.enabled = false →
    ∀ slot h, s.hoist slot = some h → h.power ≠ .releasing ∧ h.power ≠ .run

/-- A mover appears at most once in all the mover lists together (R111). -/
def MoversOnce (s : State) : Prop := s.linkedMovers.Nodup

/-- At most one queue of each bank holds a resume point (R114), a queue that holds one is pending,
and in BYPASS no queue holds one and no frame is pending (R129). -/
def ResumePointsSound (s : State) : Prop :=
  (∀ bank : Bank, ∀ i j : Fin 4, (s.queue (bank.queue i)).resume ≠ none →
      (s.queue (bank.queue j)).resume ≠ none → i = j) ∧
    (∀ q, (s.queue q).resume ≠ none → (s.queue q).due = true) ∧
    (s.loader.gate = .bypass → s.pacer.pendingFrame = false ∧ ∀ q, (s.queue q).resume = none)

/-- In BYPASS, and in GUARD while the halt is latched, no hoist has an active goal or run demand and
no mover is linked (R40, R49, R61, R84, R152). -/
def StillWhenStopped (s : State) : Prop :=
  s.loader.gate = .bypass ∨ (s.loader.gate = .guard ∧ s.halt.latched = true) →
    s.linkedMovers = [] ∧ ∀ slot h, s.hoist slot = some h → h.goal = none ∧ h.runDemand = false

/-- Groups and hoists name each other, each member once (R26, R35, R94), and a member with a
non-empty fault cause set belongs to a HELD group (R101). -/
def TrussesHeld (s : State) : Prop :=
  (∀ g r, s.group g = some r → r.members.Nodup ∧
      ∀ slot ∈ r.members, ∃ h, s.hoist slot = some h ∧ h.group = some g) ∧
    ∀ slot h g, s.hoist slot = some h → h.group = some g →
      ∃ r, s.group g = some r ∧ slot ∈ r.members ∧ (h.causes ≠ .empty → r.state = .held)

/-- The halt cause set is empty while the latch is CLEAR, and not while it is LATCHED (R147). -/
def HaltCausesSound (s : State) : Prop :=
  s.halt.latched = true ↔ s.halt.causes ≠ .empty

/-- While RESET is low each channel's state is its line's level (R147, R148). -/
def ChannelsFollowLines (s : State) : Prop :=
  s.lines.reset = false → s.halt.channelA = s.lines.stopA ∧ s.halt.channelB = s.lines.stopB

end Sys2Proof.Machine
end

