-- ==== Sys2Proof/Effects/Goals.lean ====
section
/-! DEFINITION. What the goal writes, GO, WITHDRAW, POWER and the goal-mode requests do to the
state, in the words of Safety.lean (chapters 3, 4 and 5). -/

namespace Sys2Proof.Machine

/-! ### Active goals -/

/-- A goal for a slot that is to become its hoist's active goal. -/
structure NewGoal where
  slot : Slot
  goal : Nat
  deriving DecidableEq, Repr

/-- Whether a new goal differs from the commanded position of its present hoist (R77). -/
def State.goalAhead (s : State) (e : NewGoal) : Bool :=
  match s.hoist e.slot with
  | none => false
  | some h => decide ((e.goal : Int) ≠ h.commanded)

/-- The movers that some new goals link, in the order of the first goal of each (R73, R76). -/
def State.moversLinked (s : State) (es : List NewGoal) : List Mover :=
  ((es.filterMap fun e =>
    if s.goalAhead e then (s.hoist e.slot).map fun h => h.mover e.slot else none).eraseDups).filter
      fun m => !s.linked m

/-- Whether a slot takes run demand from some new goals: its mover is linked by one of them, or it
is an ungrouped hoist with a new goal ahead of it (R49). -/
def State.takesDemand (s : State) (es : List NewGoal) (slot : Slot) (h : Hoist) : Bool :=
  (s.moversLinked es).any (fun m => slot ∈ s.moverSlots m) ||
    (h.group.isNone && es.any fun e => e.slot = slot && s.goalAhead e)

/-- A hoist with the new goal for it, if there is one; a goal at the commanded position has arrived
(R73, R77). -/
def Hoist.takesGoal (es : List NewGoal) (slot : Slot) (h : Hoist) : Hoist :=
  match es.find? fun e => e.slot = slot with
  | none => h
  | some e => { h with goal := if (e.goal : Int) = h.commanded then none else some e.goal }

/-- Some goals, at most one for each slot, become active goals (R73, R77, R78, R96). -/
def GoalsMade (es : List NewGoal) (s t : State) : Prop :=
  HoistsBecome (fun slot h =>
      let h' := h.takesGoal es slot
      if s.takesDemand es slot h then h'.wanted s else h') s t ∧
    (∀ q, t.queue q = { s.queue q with
      movers := (s.queue q).movers ++ (s.moversLinked es).filter fun m => s.moverQueue m = q }) ∧
    (∀ g, t.group g = (s.group g).map fun r =>
      if .group g ∈ s.moversLinked es then { r with state := .moving, lastSpread := 0 } else r) ∧
    t.pacer.batchNumber = s.pacer.batchNumber ∧ PacerSettingsStand s t

/-! ### Goal writes (R68 to R71) -/

/-- A goal refused with a notice, and counted (R68, R71). -/
def GoalRefused (code : NoticeCode) (slot : Slot) (goal b : Word) (s t : State) : Prop :=
  Handed [⟨.notice code, some slot.val, goal, b⟩] s t ∧ Counted [.goalsRefused] s t ∧
    KeepsAllBut [.faultQueue, .counters] s t

/-- A goal staged: in place of the slot's entry, or at the tail of the list (R69). -/
def GoalStaged (slot : Slot) (goal : Nat) (s t : State) : Prop :=
  t.goals.staging =
      (if s.goals.staging.any (fun e => e.slot = slot) then
        s.goals.staging.map fun e => if e.slot = slot then { e with goal := goal } else e
      else s.goals.staging ++ [⟨slot, goal, s.report.frameCount⟩]) ∧
    t.goals.mode = s.goals.mode ∧ t.goals.keepCode = s.goals.keepCode ∧
    Counted [.goalsAccepted] s t ∧ KeepsAllBut [.goals, .counters] s t

/-- A DIRECT goal that one of the further tests refuses (R70). -/
def DirectRefused (code : NoticeCode) (slot : Slot) (goal : Word) (addr : Addr) (s t : State) :
    Prop :=
  Handed [⟨.notice code, some slot.val, goal, addr.setWidth 32⟩] s t ∧
    Counted [.goalsAccepted, .goalsRefused] s t ∧ KeepsAllBut [.faultQueue, .counters] s t

/-- A DIRECT goal accepted: its staging entry goes, and it becomes the active goal (R70). -/
def DirectAccepted (slot : Slot) (goal : Nat) (s t : State) : Prop :=
  t.goals.staging = s.goals.staging.filter (fun e => e.slot ≠ slot) ∧
    t.goals.mode = s.goals.mode ∧ t.goals.keepCode = s.goals.keepCode ∧
    GoalsMade [⟨slot, goal⟩] s t ∧ Counted [.goalsAccepted] s t ∧
    KeepsAllBut [.goals, .hoists, .groups, .pacer, .counters] s t

/-- The further tests of a DIRECT goal, in their order (R70). -/
def DirectDecided (slot : Slot) (h : Hoist) (goal : Word) (addr : Addr) (s t : State) : Prop :=
  if s.loader.gate ≠ .guard then DirectRefused .goalNotReady slot goal addr s t
  else if s.halt.latched = true then DirectRefused .goalHalted slot goal addr s t
  else if h.causes ≠ .empty then DirectRefused .goalNotReady slot goal addr s t
  else if h.group.any s.groupHeld = true then DirectRefused .goalHeld slot goal addr s t
  else if ¬ (h.synced = true ∧ ∀ m ∈ s.moverSlots (h.mover slot), s.syncedAt m = true) then
    DirectRefused .goalNoStatus slot goal addr s t
  else DirectAccepted slot goal.toNat s t

/-- A goal for a slot, decided (R68). -/
def GoalDecided (slot : Slot) (goal : Word) (addr : Addr) (s t : State) : Prop :=
  if s.goals.keepCode = some goal then KeepsAllBut [] s t
  else match s.hoist slot with
    | none => GoalRefused .goalAbsent slot goal (addr.setWidth 32) s t
    | some h =>
      if goal.toNat < h.lowerLimit then
        GoalRefused .goalLimit slot goal (unsignedWord h.lowerLimit) s t
      else if h.upperLimit < goal.toNat then
        GoalRefused .goalLimit slot goal (unsignedWord h.upperLimit) s t
      else match s.goals.mode with
        | .cued => GoalStaged slot goal.toNat s t
        | .direct => DirectDecided slot h goal addr s t

/-! ### The grid window (R87 to R89) -/

/-- The venue cell of a show cell, by mirror and rotation, and the venue columns (R88). -/
def venueCellOf (g : GridSettings) (r c : Nat) : Nat × Nat × Nat :=
  let c' := if g.mirror then g.columns - 1 - c else c
  match g.rotation with
  | .none0 => (r, c', g.columns)
  | .quarter90 => (c', g.rows - 1 - r, g.rows)
  | .half180 => (g.rows - 1 - r, g.columns - 1 - c', g.columns)
  | .threeQuarter270 => (g.columns - 1 - c', r, g.rows)

/-- The venue map's cell for an offset in the grid window: row-major in the venue, an EMPTY cell
naming no slot (R87, R88, R89). -/
def venueSlot (g : GridSettings) (o : Nat) : Option Slot :=
  let (row, column, columns) := venueCellOf g (o / g.columns) (o % g.columns)
  (g.venue[row * columns + column]?).join

/-- A grid write, mapped to its venue cell and decided (R89). -/
def GridDecided (g : GridSettings) (o : Nat) (goal : Word) (addr : Addr) (s t : State) : Prop :=
  match venueSlot g o with
  | some slot => GoalDecided slot goal addr s t
  | none =>
    if s.goals.keepCode = some goal then KeepsAllBut [] s t
    else
      Handed [⟨.notice .gridEmptyCell, none, goal, addr.setWidth 32⟩] s t ∧
        Counted [.goalsRefused] s t ∧ KeepsAllBut [.faultQueue, .counters] s t

/-! ### GO (R75, R76) -/

/-- The notice a staging entry meets at GO, if it fails (R76). An entry without a hoist record,
which the rules do not let stand, is refused as GOAL_ABSENT (log entry 19). -/
def State.entryNotice (s : State) (e : StagingEntry) : Option NoticeCode :=
  match s.hoist e.slot with
  | none => some .goalAbsent
  | some h =>
    if h.causes ≠ .empty then some .goalNotReady
    else if h.group.any s.groupHeld then some .goalHeld
    else if h.synced && (s.moverSlots (h.mover e.slot)).all s.syncedAt then none
    else some .goalNoStatus

/-- The entries that GO promotes, in list order. -/
def State.promoted (s : State) : List NewGoal :=
  s.goals.staging.filterMap fun e =>
    match s.entryNotice e with
    | none => some ⟨e.slot, e.goal⟩
    | some _ => none

/-- The notices of the entries that GO refuses, in list order (R72). -/
def State.promotionNotices (s : State) : List FaultRecord :=
  s.goals.staging.filterMap fun e =>
    (s.entryNotice e).map fun code =>
      ⟨.notice code, some e.slot.val, BitVec.ofNat 32 e.goal, e.arrival⟩

/-- An accepted GO (R76). -/
def ScenePromoted (s t : State) : Prop :=
  Answered 6 .done (BitVec.ofNat 32 s.promoted.length) s t ∧ GoalsMade s.promoted s t ∧
    t.goals = { s.goals with staging := [] } ∧ Handed s.promotionNotices s t ∧
    Counted (List.replicate s.promotionNotices.length .goalsRefused) s t ∧
    KeepsAllBut [.goals, .hoists, .groups, .pacer, .counters, .faultQueue, .requests, .captured] s t

/-! ### WITHDRAW and POWER (R65, R80) -/

/-- The present hoist, the in-use group, or ALL that a kind word and a number word name (R64, R80).
The number is not read for ALL. -/
def State.subjectOf (s : State) (kind number : Word) : Option Subject :=
  if kind = 1 then
    if h : number.toNat < 128 then
      if (s.hoist ⟨number.toNat, h⟩).isSome then some (.hoist ⟨number.toNat, h⟩) else none
    else none
  else if kind = 2 then
    if h : number.toNat < 32 then
      if (s.group ⟨number.toNat, h⟩).isSome then some (.group ⟨number.toNat, h⟩) else none
    else none
  else some .all

/-- A subject withdrawn: its hoists' goals go, and its movers are unlinked (R80). -/
def SubjectWithdrawn (x : Subject) (s t : State) : Prop :=
  Answered 8 .done (BitVec.ofNat 32 ((s.withdrawSlots x).countP fun slot =>
      (s.hoist slot).any fun h => h.goal.isSome)) s t ∧
    HoistsBecome (fun slot h => if slot ∈ s.withdrawSlots x then { h with goal := none } else h)
      s t ∧
    Unlinked (s.withdrawMovers x) s t ∧ GroupsStopped (s.withdrawMovers x) s t ∧
    t.pacer.batchNumber = s.pacer.batchNumber ∧ PacerSettingsStand s t ∧
    KeepsAllBut [.hoists, .groups, .pacer, .requests, .captured] s t

/-- What a level does to a hoist (R65). -/
def Hoist.powered (s : State) (level : PowerLevel) (h : Hoist) : Hoist :=
  match level with
  | .off => if h.power = .off then h else h.fallToOff
  | .standby =>
    match h.power with
    | .off => { h.wake with runDemand := false }
    | .waking => { h with runDemand := false }
    | .standby => { h with runDemand := false }
    | .releasing => h.fallToStandby s.confirmFrames
    | .run => h.fallToStandby s.confirmFrames
  | .run =>
    if h.causes ≠ .empty ∨ h.group.any s.groupHeld = true ∨ h.synced = false then h
    else h.wanted s

/-- Whether a level counts a hoist (R65). -/
def Hoist.counted (s : State) (level : PowerLevel) (h : Hoist) : Bool :=
  match level with
  | .off => decide (h.power ≠ .off)
  | .standby =>
    match h.power with
    | .off => true
    | .waking => h.runDemand
    | .standby => h.runDemand
    | .releasing => true
    | .run => true
  | .run =>
    decide (h.power ≠ .run) && decide (h.causes = .empty) && !h.group.any s.groupHeld && h.synced &&
      !h.runDemand

/-- The linked movers that a level withdraws before the hoists are taken (R65). -/
def State.moversWithdrawn (s : State) (level : PowerLevel) (slots : List Slot) : List Mover :=
  match level with
  | .run => []
  | .off => s.linkedMovers.filter fun m => (s.moverSlots m).any (· ∈ slots)
  | .standby => s.linkedMovers.filter fun m => (s.moverSlots m).any (· ∈ slots)

/-- A level applied to some hoists (R65). -/
def LevelApplied (level : PowerLevel) (slots : List Slot) (s t : State) : Prop :=
  Answered 10 .done (BitVec.ofNat 32 (slots.countP fun slot =>
      (s.hoist slot).any (Hoist.counted s level))) s t ∧
    HoistsBecome (fun slot h =>
      let h' := if (s.moversWithdrawn level slots).any (fun m => slot ∈ s.moverSlots m) then
        { h with goal := none } else h
      if slot ∈ slots then h'.powered s level else h') s t ∧
    Unlinked (s.moversWithdrawn level slots) s t ∧
    GroupsStopped (s.moversWithdrawn level slots) s t ∧
    t.pacer.batchNumber = s.pacer.batchNumber ∧ PacerSettingsStand s t ∧
    KeepsAllBut [.hoists, .groups, .pacer, .requests, .captured] s t

/-- The level a level word names (R173). -/
def levelOf (w : Word) : Option PowerLevel :=
  if w = 0 then some .off else if w = 1 then some .standby else if w = 2 then some .run else none

/-! ### Steps (R59, R81, R97, R118) -/

/-- The distance from a hoist's commanded position to its active goal; 0 with no goal. -/
def State.distanceAt (s : State) (slot : Slot) : Nat :=
  match s.hoist slot with
  | none => 0
  | some h => match h.goal with
    | none => 0
    | some g => ((g : Int) - h.commanded).natAbs

/-- The effective step of a mover, from the settings its hoists share and the largest remaining
distance among them (R118). -/
def effectiveStepOf (lead : Hoist) (trim largest : Nat) : Nat :=
  max 1 (lead.step * trim * (if largest ≤ lead.approachBand then lead.approachRatio else 8) / 64)

/-- A hoist moved toward its active goal by a step, or by its remaining distance if that is less: a
goal reached goes, and its record takes its command and its sync with it (R48, R59, R81). -/
def Hoist.paced (step : Nat) (h : Hoist) : Hoist :=
  match h.goal with
  | none => { h with commandDirty := false, syncDue := false }
  | some g =>
    let d := min step ((g : Int) - h.commanded).natAbs
    let position : Int := if h.commanded < g then h.commanded + d else h.commanded - d
    { h with
      commanded := position
      lastDirection :=
        if d = 0 then h.lastDirection else if h.commanded < g then some .up else some .down
      sinceStep := if d = 0 then h.sinceStep else 0
      goal := if position = g then none else some g
      commandDirty := false
      syncDue := false }

/-- The PACE record of a paced hoist, a SYNC record with no hint where sync is due (R48, R118). -/
def paceRecord (slot : Slot) (step : Nat) (h : Hoist) : SetpointRecord :=
  ⟨slot, (h.paced step).commanded, h.command, if h.syncDue then .sync else .pace,
    if h.syncDue then 0 else match h.goal with
      | none => 0
      | some g => min step ((g : Int) - h.commanded).natAbs⟩

end Sys2Proof.Machine
end

