-- ==== Sys2Proof/Effects/Port.lean ====
section
/-! DEFINITION. What accesses and the completions of the memory port do to the state, in the words
of Safety.lean (chapters 1, 7 and 11). -/

namespace Sys2Proof.Machine

/-! ### Accesses (R1, R2, R19) -/

/-- The access that a command of the opcode table is, where it is one. -/
def accessOf : Instr → Option Access
  | .accessArrival a => some a
  | .goalWrite addr goal => some ⟨.processor, addr, .write goal allBytes⟩
  | .gridWrite addr goal => some ⟨.processor, addr, .write goal allBytes⟩
  | .statusWordWrite addr data enables => some ⟨.driveLink, addr, .write data enables⟩
  | .statusArrival addr data enables => some ⟨.driveLink, addr, .write data enables⟩
  | .keyWordWrite n data enables => some ⟨.processor, keyWordAddr n, .write data enables⟩
  | .load => some (requestAccess 1)
  | .restart => some (requestAccess 2)
  | .setModeBypass => some (requestAccess 3)
  | .setModeGuard => some (requestAccess 3)
  | .unlock => some (requestAccess 4)
  | .lock => some (requestAccess 5)
  | .go => some (requestAccess 6)
  | .clearStage => some (requestAccess 7)
  | .withdraw => some (requestAccess 8)
  | .setGoalMode => some (requestAccess 9)
  | .power => some (requestAccess 10)
  | .clearFaultHoist => some (requestAccess 11)
  | .clearFaultGroup => some (requestAccess 11)
  | .resume => some (requestAccess 12)
  | .setRate => some (requestAccess 13)
  | .setTrim => some (requestAccess 14)
  | .snapshotStats => some (requestAccess 15)
  | .unknownRequest code => some (requestAccess code)
  | .passThroughComplete => none
  | .releaseWordComplete => none
  | .reportWordComplete => none
  | .loadWordRead => none
  | .loadValidation => none
  | .frameArrival => none
  | .queueServiceDue _ => none
  | .confirmWindowOpens _ => none
  | .confirmTimeout _ => none
  | .settleWindowEnds _ => none
  | .idlePark _ => none
  | .statusLost _ => none
  | .retryHoldExpiry _ => none
  | .stopDiscrepancy => none
  | .statisticsSnapshot => none
  | .stopChannelOpens _ => none
  | .stopChannelCloses _ => none
  | .resetAsserted => none
  | .resetReleased => none

/-- A master's access waits for the memory port; a drive link engine read of the setpoint area may
have been held again, where the event's end grants the first word of a batch (R2, R9). -/
def WaitsForPort (a : Access) (s t : State) : Prop :=
  t.port.places.get a.mid = .waiting a ∨
    (t.port.places.get a.mid = .held a ∧ a.mid = .driveLink ∧ a.op = .read ∧
      s.inSetpointArea a.addr = true ∧ s.writer.state = .starting)

/-- The record of a dropped write's notice: its address and its master (R19). -/
def dropRecord (a : Access) (code : NoticeCode) (subject : Option Nat) : FaultRecord :=
  ⟨.notice code, subject, a.addr.setWidth 32,
    match a.mid with
    | .processor => 0
    | .driveLink => 1
    | .auxiliary => 2
    | .service => 3⟩

/-- A taken access that hands nothing to a consumer is carried out by its class (R2). The other
classes, CAPTURE and INTERCEPT, have statements of their own rows. -/
def CarriedOut (a : Access) (c : AccessClass) (s t : State) : Prop :=
  match c with
  | .pass => WaitsForPort a s t ∧ KeepsAllBut [] s t
  | .drop none => t.port.places.get a.mid = .empty ∧ KeepsAllBut [] s t
  | .drop (some (code, subject)) =>
    t.port.places.get a.mid = .empty ∧ Handed [dropRecord a code subject] s t ∧
      KeepsAllBut [.faultQueue] s t
  | .zero =>
    t.port.places.get a.mid = .empty ∧ t.port.readData = s.port.readData.set a.mid 0 ∧
      KeepsAllBut [.readData] s t
  | .hold => t.port.places.get a.mid = .held a ∧ KeepsAllBut [] s t
  | .capture _ => True
  | .intercept _ => True

/-! ### The memory at a completion (R3) -/

/-- The memory after a word operation: the enabled bytes of a write at its address, and every other
byte as it stood. -/
def MemoryTook (op : PortOp) (s t : State) : Prop :=
  ∀ a : Nat, Memory.read t.mem a =
    match op.op with
    | .read => Memory.read s.mem a
    | .write data enables =>
      if a / 4 = op.addr.toNat ∧ enables.getLsbD (a % 4) = true then byteOf data (a % 4)
      else Memory.read s.mem a

/-- A master's pass-through access has completed, with nothing of the master's on the bus (R2, R3).
-/
def PassCompleted (m : Mid) (op : PortOp) (s t : State) : Prop :=
  t.port.places.get m = .empty ∧ t.lines.wait.get m = false ∧
    match op.op with
    | .read =>
      t.port.readData = s.port.readData.set m (Memory.readWord s.mem op.addr) ∧
        KeepsAllBut [.readData] s t
    | .write _ _ => KeepsAllBut [.memory] s t

/-! ### Record words (R124) -/

/-- The slots of an owed batch. -/
def OwedBatch.slots : OwedBatch → List Slot
  | .hold slots => slots
  | .sync slots => slots

/-- The kind of an owed batch's records where sync is not due (R121, R122). -/
def OwedBatch.recordKind : OwedBatch → RecordKind
  | .hold _ => .hold
  | .sync _ => .sync

/-- A hoist whose record has been composed: nothing is due of it, and a STANDBY hoist whose sync was
due goes on to RELEASING where the conditions of R53 hold (R48). -/
def Hoist.composedIn (s : State) (h : Hoist) : Hoist :=
  let cleared := { h with commandDirty := false, syncDue := false }
  if h.syncDue ∧ s.mayRelease cleared = true then cleared.release else cleared

/-- The records of some slots' present hoists, in the order of the slots: position and command as
they stand, SYNC where sync is due and of a kind otherwise, no speed hint (R48, R120 to R122). -/
def recordsOf (kind : RecordKind) (slots : List Slot) (s : State) : List SetpointRecord :=
  slots.filterMap fun slot => (s.hoist slot).map fun h =>
    ⟨slot, h.commanded, h.command, if h.syncDue then .sync else kind, 0⟩

/-- The next batch that follows directly becomes the batch in hand: the HALT batch behind an
abandoned one, else the first owed batch, composed of its present slots (R121 to R124). -/
def NextBatchInHand (s t : State) : Prop :=
  match s.writer.following, s.writer.owed with
  | some f, _ =>
    t.writer.hand.map BatchInHand.content = some (f.number, f.records, false) ∧
      t.writer.following = none ∧ t.writer.owed = s.writer.owed ∧
      KeepsAllBut [.memory, .batches, .counters] s t
  | none, o :: rest =>
    (∃ slot ∈ o.slots, s.present slot = true) →
      t.pacer.batchNumber = s.pacer.batchNumber + 1 ∧ PacerSettingsStand s t ∧
        (∀ q, t.queue q = s.queue q) ∧
        t.writer.hand.map BatchInHand.content =
          some (s.pacer.batchNumber + 1, recordsOf o.recordKind o.slots s, false) ∧
        HoistsBecome (fun slot h => if slot ∈ o.slots then h.composedIn s else h) s t ∧
        t.writer.owed = rest ∧ t.writer.following = none ∧
        KeepsAllBut [.memory, .batches, .counters, .hoists, .pacer] s t
  | none, [] => True

/-- The Release Writer has become IDLE with nothing in hand and nothing owed (R124). -/
def WriterIdles (s t : State) : Prop :=
  t.writer = ⟨.idle, none, none, []⟩ ∧ KeepsAllBut [.memory, .batches, .counters] s t

/-- The next word that the Release Writer has to write of the record in hand is word `n`; the
event's end may have granted it (R124). -/
def NextWordIs (n : Nat) (t : State) : Prop :=
  ∀ b, t.writer.hand = some b → b.granted = n ∨ b.granted = n + 1

/-- A frame pends at the end of the last batch: with the Release Writer IDLE, from `u`, the pending
frame is taken as `takeFrame` takes one, and pends no more (R112, R124). -/
def PendingFrameTaken (b : BatchInHand) (s t : State) : Prop :=
  ∃ u, WriterIdles s u ∧ Counted (if b.abandoned then [] else [.batchesWritten]) s u ∧
    let v := takeFrame { u with pacer := { u.pacer with pendingFrame := false } }
    KeepsAllBut [.memory] v t ∧ (t.writer.state = .idle ↔ v.writer.state = .idle) ∧
      t.pacer.pendingFrame = false ∧ NextWordIs 0 t

/-- The drive link engine's held read is granted the port that the batch's last word has freed, even
where a pending frame has started a new batch at once (R9). -/
def HeldReadGranted (s t : State) : Prop :=
  ∀ a, s.port.places.driveLink = .held a → s.memPort.previous = .internal →
    t.port.places.driveLink = .waiting a ∧
      t.memPort.op = some ⟨.passThrough .driveLink, a.addr, .read, true⟩

/-- A record word has been written: the batch in hand goes on, another follows it directly, or the
Release Writer becomes IDLE (R9, R124). -/
def ReleaseWordDone (s t : State) : Prop :=
  match s.writer.hand with
  | none => KeepsAllBut [.memory] s t
  | some b =>
    let counted := Counted (if b.abandoned then [] else [.batchesWritten]) s t
    if b.granted < 4 then
      t.writer.state = .writing ∧ NextWordIs b.granted t ∧ KeepsAllBut [.memory] s t
    else if 1 < b.records.length then
      t.writer.hand.map BatchInHand.content = some (b.number, b.records.tail, b.abandoned) ∧
        t.writer.owed = s.writer.owed ∧ t.writer.following = s.writer.following ∧
        t.writer.state = .writing ∧ NextWordIs 0 t ∧ KeepsAllBut [.memory, .batches] s t
    else if s.writer.following = none ∧ s.writer.owed = [] then
      (s.pacer.pendingFrame = false → counted ∧ WriterIdles s t) ∧
        (s.pacer.pendingFrame = true → PendingFrameTaken b s t) ∧ HeldReadGranted s t
    else
      NextBatchInHand s t ∧
        ((s.writer.following ≠ none ∨
            ∃ slot ∈ s.writer.owed.flatMap OwedBatch.slots, s.present slot = true) →
          counted ∧ t.writer.state = .writing ∧ NextWordIs 0 t)

/-! ### Report words (R166, R169, R171, R172) -/

/-- The fault report queue after a record's last word: the record leaves it, and a marker of dropped
records joins it where there is room (R168, R169). -/
def queueAfterRecord (s : State) : List FaultRecord × Nat :=
  let left := s.report.queue.tail
  if s.loader.gate.installed = true ∧ 0 < s.report.dropped ∧ left.length < 32 then
    (left ++ [⟨.notice .reportsDropped, none, unsignedWord s.report.dropped, s.report.frameCount⟩],
      0)
  else (left, s.report.dropped)

/-- A word of a fault record has been written: the next one is to come, or the record leaves the
queue, and the write of another may have begun at the event's end (R169). -/
def RecordWordDone (w : RecordWrite) (s t : State) : Prop :=
  if w.written < 3 then
    t.report.recordWrite = some { w with written := w.written + 1 } ∧ KeepsAllBut [.memory] s t
  else
    (t.report.queue, t.report.dropped) = queueAfterRecord s ∧
      t.report.writeIndex = (if w.index + 1 = w.ring.count then 0 else w.index + 1) ∧
      t.report.lastSequence = w.sequence ∧ Counted [.recordsWritten] s t ∧
      t.report.ring = (if s.loader.gate.installed then s.report.ring else none) ∧
      (∀ x, t.report.recordWrite = some x → x.sequence = s.report.nextSequence ∧
        some x.ring = t.report.ring ∧ x.index = t.report.writeIndex ∧ x.written = 0) ∧
      KeepsAllBut [.memory, .faultQueue, .ring, .counters] s t

/-- A part-owned word has been written: the request that waited for it, and for no other, ends
(R166). A word claimed before the request's result event does not count (log entry 25). -/
def MirrorWordDone (i : Fin 16) (awaited : Bool) (s t : State) : Prop :=
  match s.requests.state with
  | .closing r marks =>
    if awaited then
      (if marks.set i.val false i.isLt = Vector.replicate 16 false then t.requests.state = .idle
        else t.requests.state = .closing r (marks.set i.val false i.isLt)) ∧
        t.requests.result = s.requests.result ∧ t.requests.detail = s.requests.detail ∧
        KeepsAllBut [.memory, .requests] s t
    else KeepsAllBut [.memory] s t
  | .idle => KeepsAllBut [.memory] s t
  | .inHand _ => KeepsAllBut [.memory] s t
  | .answered _ => True

/-- A snapshot has been taken at this event, with a frame count and the batch number and counters as
they stand; the Report Writer may have claimed its first word already (R171). -/
def SnapshotTaken (frameCount : Word) (s t : State) : Prop :=
  t.report.snapshot = .owed ⟨frameCount, s.pacer.batchNumber, s.report.counters⟩ ∨
    t.report.snapshot = .writing ⟨frameCount, s.pacer.batchNumber, s.report.counters⟩ 0

/-- A word of the statistics block has been written: the next is to come, and the last ends the
snapshot, and a SNAPSHOT_STATS request with it where the snapshot is its own (R171, R172). -/
def SnapshotWordDone (v : SnapshotValues) (written : Nat) (s t : State) : Prop :=
  if written < 63 then
    t.report.snapshot = .writing v (written + 1) ∧ KeepsAllBut [.memory] s t
  else match s.report.statsRequest with
    | .noRequest => KeepsAllBut [.memory] s t ∧ t.report.snapshot = .notTaken
    | .afterCurrent =>
      t.report.statsRequest = .own ∧ SnapshotTaken s.report.frameCount s t ∧
        t.report.cadence = s.report.cadence ∧ KeepsAllBut [.memory, .statistics] s t
    | .own =>
      t.report.statsRequest = .noRequest ∧ t.report.snapshot = .notTaken ∧
        t.requests.result = .done ∧ t.requests.detail = v.frameCount ∧
        (∀ r, s.requests.state = .inHand r → t.requests.state.closes r s t) ∧
        t.report.cadence = s.report.cadence ∧ KeepsAllBut [.memory, .statistics, .requests] s t

/-- A word the Report Writer claimed has been written. -/
def ReportWordDone (s t : State) : Prop :=
  match s.report.claim with
  | none => KeepsAllBut [.memory] s t
  | some c =>
    match c.word with
    | .faultRecord => ∀ w, s.report.recordWrite = some w → w.index < w.ring.count →
      RecordWordDone w s t
    | .mirror i awaited => MirrorWordDone i awaited s t
    | .snapshot => ∀ v written, s.report.snapshot = .writing v written →
      SnapshotWordDone v written s t

end Sys2Proof.Machine
end

