-- ==== Sys2Proof/Effects/Supervision.lean ====
section
/-! DEFINITION. What status writes, causes, holds, the halt and RESUME do to the state, in the words
of Safety.lean (chapters 6, 8 and 9). -/

namespace Sys2Proof.Machine

/-! ### Captured words (R18) -/

/-- The enabled bytes of a write over the other bytes of the old word. -/
def MergedWord (old data : Word) (enables : ByteEnables) (new : Word) : Prop :=
  ∀ lane : Fin 4, byteOf new lane =
    if enables.getLsbD lane = true then byteOf data lane else byteOf old lane

/-- A status word merged into its slot's copy, and marked; every other word and mark stands (R132).
-/
def StatusMerged (slot : Slot) (word : Fin 3) (data : Word) (enables : ByteEnables) (s t : State) :
    Prop :=
  (∀ k, k ≠ slot → t.statusCopy k = s.statusCopy k) ∧
    (∀ n : Fin 4,
      if n.val = word.val then
        MergedWord (s.statusCopy slot).words[n] data enables (t.statusCopy slot).words[n]
      else (t.statusCopy slot).words[n] = (s.statusCopy slot).words[n]) ∧
    (∀ n : Fin 3, (t.statusCopy slot).marks[n] =
      (decide (n = word) || (s.statusCopy slot).marks[n])) ∧
    KeepsAllBut [.statusCopies] s t

/-! ### The decision of an arrival (R133, R134) -/

/-- The status words an arrival completes: the copies of words 0 to 2, and word 3 merged. -/
def arrivalWords (slot : Slot) (data : Word) (enables : ByteEnables) (s : State) :
    Vector Word 4 :=
  (s.statusCopy slot).words.set 3 (mergeBytes (s.statusCopy slot).words[3] data enables)

/-- The drive state of status word 2, where it is OFF, POWERED or RELEASED (R173). -/
def driveStateOf (w : Word) : Option Drive :=
  if w.toNat % 4 = 0 then some .off
  else if w.toNat % 4 = 1 then some .powered
  else if w.toNat % 4 = 2 then some .released
  else none

/-- The slot's copy at the end of an arrival: the words as completed, every mark cleared (R133). -/
def CopyCompleted (slot : Slot) (words : Vector Word 4) (s t : State) : Prop :=
  t.statusCopy slot = ⟨words, Vector.replicate 3 false⟩ ∧
    ∀ k, k ≠ slot → t.statusCopy k = s.statusCopy k

/-! ### A taken arrival (R135, R136, R145) -/

/-- The record as steps 1 and 2 of a taken arrival leave it. -/
def Hoist.reports (h : Hoist) (words : Vector Word 4) (reported : Drive) : Hoist :=
  { h with
    measured := some words[0].toInt
    load := some (words[1].toNat % 65536)
    reported := some reported
    driveCode :=
      if words[2].toNat / 256 % 256 = 0 then none else some (words[2].toNat / 256 % 256)
    stamp := some (words[3].setWidth 16)
    age := 0
    commanded := if h.synced then h.commanded else words[0].toInt
    synced := true
    syncDue := !h.synced || h.syncDue }

/-- The comparison of R58 with the power state gives a mismatch. -/
def Hoist.disagrees (x : Hoist) : Bool :=
  x.settle = 0 &&
    (x.power = .standby && (x.reported = some .off || x.reported = some .released) ||
      x.power = .run && (x.reported = some .off || x.reported = some .powered))

/-- A measured position below the lower soft limit less the follow limit: every negative one, as
R136 says, though signed arithmetic does not say so of a negative bound (log entry 29). -/
def Hoist.tooLow (x : Hoist) (measured : Int) : Bool :=
  measured < 0 || measured < (x.lowerLimit : Int) - x.followLimit

/-- A measured position past a bound of LIMIT_OVERRUN (R136). -/
def Hoist.pastItsLimits (x : Hoist) (measured : Int) : Bool :=
  x.tooLow measured || (x.upperLimit : Int) + x.followLimit < measured

/-- Whether a taken arrival in GUARD raises a cause, in the order of R136. -/
def Hoist.raisesCause (x : Hoist) (measured : Int) (load : Nat) : HoistCause → Bool
  | .overload => x.overloadThreshold < load
  | .slack => x.power = .run && x.slackThreshold ≠ 0 && load < x.slackThreshold
  | .follow => x.power = .run && x.followLimit < (measured - x.commanded).natAbs
  | .limitOverrun => x.pastItsLimits measured
  | .driveFault => x.driveCode ≠ none
  | .stateMismatch => x.disagrees
  | .statusLost => false
  | .confirmTimeout => false

/-- Whether step 3 clears a cause: STATUS_LOST of a member of a RETRY group (R142). -/
def State.clearsItself (s : State) (h : Hoist) (c : HoistCause) : Bool :=
  c = .statusLost && h.group.any fun g => (s.group g).any fun r => r.policy = .retry

/-- The causes standing after step 3. -/
def State.causesBefore (s : State) (h : Hoist) (c : HoistCause) : Bool :=
  h.causes.has c && !s.clearsItself h c

/-- The causes a taken arrival in GUARD adds, in order. -/
def State.causesAdded (s : State) (h x : Hoist) (measured : Int) (load : Nat) : List HoistCause :=
  allHoistCauses.filter fun c => x.raisesCause measured load c && !s.causesBefore h c

/-- Values A and B of a cause found at a taken arrival (R139). -/
def Hoist.causeValues (x : Hoist) (measured : Int) (load : Nat) : HoistCause → Word × Word
  | .overload => (unsignedWord load, unsignedWord x.overloadThreshold)
  | .slack => (unsignedWord load, unsignedWord x.slackThreshold)
  | .follow => (signedWord (measured - x.commanded), unsignedWord x.followLimit)
  | .limitOverrun =>
    (signedWord measured,
      signedWord (if x.tooLow measured then (x.lowerLimit : Int) - x.followLimit
        else x.upperLimit + x.followLimit))
  | .driveFault => (unsignedWord (x.driveCode.getD 0), signedWord measured)
  | .stateMismatch =>
    (BitVec.ofNat 32 (match x.reported with
      | none => 0
      | some d => Machine.driveCode d), BitVec.ofNat 32 (Machine.driveCode x.command))
  | .statusLost => (0, 0)
  | .confirmTimeout => (0, 0)

/-- The HOIST record of a cause. -/
def causeRecord (slot : Slot) (c : HoistCause) (v : Word × Word) : FaultRecord :=
  ⟨.hoist c, some slot.val, v.1, v.2⟩

/-- Whether a power state has the brake released or being released. -/
def PowerState.unbraked : PowerState → Bool
  | .off => false
  | .waking => false
  | .standby => false
  | .releasing => true
  | .run => true

/-- One hoist's record becomes `y`, and nothing else changes. -/
def HoistAlone (slot : Slot) (y : Hoist) (s t : State) : Prop :=
  (∀ k, t.hoist k = if k = slot then some y else s.hoist k) ∧ KeepsAllBut [.hoists] s t

/-! ### First causes, further causes and holds (R101 to R105, R138 to R141) -/

/-- Some slots due a HOLD record: an IDLE Release Writer starts a HOLD batch of them, and otherwise
they join the owed HOLD batch, or owe one at the end of the list (R121). -/
def HoldDue (slots : List Slot) (s t : State) : Prop :=
  match s.writer.state with
  | .idle =>
    BatchStarted (slots.filterMap fun slot =>
      match s.hoist slot, t.hoist slot with
      | some h, some h' =>
        some ⟨slot, h'.commanded, h'.command, if h.syncDue then .sync else .hold, 0⟩
      | _, _ => none) s t
  | .starting => HoldOwed slots s t
  | .writing => HoldOwed slots s t
where
  /-- The owed list with the slots in its HOLD batch. -/
  HoldOwed (slots : List Slot) (s t : State) : Prop :=
    t.pacer.batchNumber = s.pacer.batchNumber ∧ t.writer.owed = oweHold slots s.writer.owed ∧
      t.writer.following = s.writer.following ∧
      t.writer.hand.map BatchInHand.content = s.writer.hand.map BatchInHand.content

/-- A hoist whose HOLD record is composed at once, or due (R48). -/
def Hoist.recorded (composed : Bool) (h : Hoist) : Hoist :=
  { h with commandDirty := !composed && h.commandDirty, syncDue := !composed && h.syncDue }

/-- A member of a group that becomes HELD in GUARD, its HOLD record composed at once or due (R102,
R103). -/
def Hoist.stoodDown (confirmLimit : Nat) (composed : Bool) (h : Hoist) : Hoist :=
  let down :=
    if h.power.unbraked then h.fallToStandby confirmLimit else { h with runDemand := false }
  { down with goal := none }.recorded composed

/-- A group that becomes HELD, or takes further trouble while it is HELD (R102, R104, R105). -/
def TrussGroup.heldBy (causes : GroupCauses) (r : TrussGroup) : TrussGroup :=
  { r with
    state := .held
    causes := causes
    retry := match r.policy with
      | .retry => r.retryHold
      | .latch => r.retry }

/-- The record of MEMBER_FAULT that a member's first cause raises, where the group's set does not
hold it yet: the member, and how many members are faulted after the event, the member's own (R101;
log entry 34). -/
def memberFaultRecords (g : GroupNo) (r : TrussGroup) (slot : Slot) (s : State) :
    List FaultRecord :=
  if r.causes.memberFault then []
  else [⟨.group .memberFault, some g.val, BitVec.ofNat 32 slot.val,
    BitVec.ofNat 32 (r.members.countP fun m => m = slot || s.faulted m)⟩]

/-- The record of a hoist that has taken first causes, from `down`, its record with its causes in it
and its power state as the event leaves it: no goal, no run demand, its HOLD record composed at once
by an IDLE Release Writer or due, and then what the event does last (R140). -/
def Hoist.afterFirstCauses (down : Hoist) (last : Hoist → Hoist) (s : State) : Hoist :=
  let composed := decide (s.writer.state = WriterState.idle)
  last ({ down with goal := none, runDemand := false }.recorded composed)

/-- Causes join an empty set in GUARD (R101, R102, R105, R140). `down` and `last` are as
`Hoist.afterFirstCauses` takes them; `last` is nothing, or a confirmation. -/
structure FirstCausesTaken (slot : Slot) (down : Hoist) (last : Hoist → Hoist)
    (records : List FaultRecord) (s t : State) : Prop where
  fault : t.lines.fault = true
  ungrouped : down.group = none →
    Handed records s t ∧ HoldDue [slot] s t ∧
      HoistsBecome (fun k h => if k = slot then down.afterFirstCauses last s else h) s t ∧
      (∀ q, t.queue q = s.queue q) ∧ PacerSettingsStand s t ∧
      KeepsAllBut [.hoists, .pacer, .batches, .faultQueue] s t
  grouped : ∀ g r, down.group = some g → s.group g = some r →
    Handed (records ++ memberFaultRecords g r slot s) s t ∧
      (∀ k, t.group k =
        if k = g then some (r.heldBy { r.causes with memberFault := true }) else s.group k) ∧
      (r.state = .held →
        HoldDue [slot] s t ∧
          HoistsBecome (fun k h => if k = slot then down.afterFirstCauses last s else h) s t ∧
          (∀ q, t.queue q = s.queue q)) ∧
      (r.state ≠ .held →
        HoldDue r.members s t ∧ Unlinked [.group g] s t ∧
          HoistsBecome (fun k h =>
            if k = slot then down.afterFirstCauses last s
            else if k ∈ r.members then
              h.stoodDown s.confirmFrames (decide (s.writer.state = .idle))
            else h) s t) ∧
      PacerSettingsStand s t ∧
      KeepsAllBut [.hoists, .groups, .pacer, .batches, .faultQueue] s t

/-- Causes join a set that is not empty in GUARD: the hoist's record becomes `y`, and a HELD group
under RETRY counts its hold again (R105, R141). -/
def FurtherCausesTaken (slot : Slot) (y : Hoist) (records : List FaultRecord) (s t : State) :
    Prop :=
  Handed records s t ∧
    (∀ k, t.hoist k = if k = slot then some y else s.hoist k) ∧
    (∀ g, t.group g = (s.group g).map fun r =>
      if y.group = some g ∧ r.state = .held ∧ r.policy = .retry then { r with retry := r.retryHold }
      else r) ∧
    t.lines.fault = true ∧ KeepsAllBut [.hoists, .groups, .faultQueue] s t

/-! ### The spread check (R99, R100, R102, R103) -/

/-- The spread of some hoists: the largest offset of measured from commanded position less the
smallest (R99). -/
def SpreadIs (s : State) (slots : List Slot) (spread : Nat) : Prop :=
  (∃ a ∈ slots, ∃ b ∈ slots, (spread : Int) = offsetAt s a - offsetAt s b) ∧
    ∀ a ∈ slots, ∀ b ∈ slots, offsetAt s a - offsetAt s b ≤ spread
where
  /-- Measured less commanded position. -/
  offsetAt (s : State) (slot : Slot) : Int :=
    match s.hoist slot with
    | none => 0
    | some h => h.measured.getD 0 - h.commanded

/-- A spread above the tolerance holds the group (R100, R102, R103). -/
structure SpreadHeld (g : GroupNo) (r : TrussGroup) (spread : Nat) (s t : State) : Prop where
  group : t.group g =
    some ({ r with lastSpread := spread }.heldBy { r.causes with spread := true })
  others : ∀ k, k ≠ g → t.group k = s.group k
  record : Handed [⟨.group .spread, some g.val, unsignedWord spread, BitVec.ofNat 32 r.tolerance⟩]
    s t
  hoists : HoistsBecome (fun slot h =>
    if slot ∈ r.members then h.stoodDown s.confirmFrames (decide (s.writer.state = .idle)) else h)
    s t
  unlinked : Unlinked [.group g] s t
  hold : HoldDue r.members s t
  settings : PacerSettingsStand s t
  frame : KeepsAllBut [.hoists, .groups, .pacer, .batches, .faultQueue] s t

/-- The spread check of one group: made where the group is MOVING and every member is synced, it
sets the last spread, and holds the group where the spread is above the tolerance (R99, R100). -/
def SpreadChecked (g : GroupNo) (r : TrussGroup) (s t : State) : Prop :=
  let checked := r.state = .moving ∧ ∀ m ∈ r.members, s.syncedAt m = true
  (¬checked → (∀ k, t.group k = s.group k) ∧ KeepsAllBut [] s t) ∧
    ∀ spread, checked → SpreadIs s r.members spread →
      (spread ≤ r.tolerance →
        (∀ k, t.group k = if k = g then some { r with lastSpread := spread } else s.group k) ∧
          KeepsAllBut [.groups] s t) ∧
      (r.tolerance < spread → SpreadHeld g r spread s t)

/-! ### The steps of a taken arrival in GUARD (R135) -/

/-- The record after the checks of an arrival that reports OFF where the expected state is another:
the hoist is commanded OFF (R137). -/
def Hoist.offIfMissing (h : Hoist) : Hoist :=
  if h.disagrees = true ∧ h.reported = some .off then h.fallToOff else h

/-- The record after step 5 where a first cause has been added: from RELEASING or RUN to OFF or
STANDBY, and no run demand (R137, R140). -/
def Hoist.fallen (confirmLimit : Nat) (h : Hoist) : Hoist :=
  if h.power.unbraked then
    if h.reported = some .off then h.fallToOff else h.fallToStandby confirmLimit
  else { h.offIfMissing with runDemand := false }

/-- The record after step 5 where a cause has joined others: a report of OFF and R49 act alone
(R137, R141). -/
def Hoist.fallenFurther (h : Hoist) : Hoist :=
  let x := h.offIfMissing
  if x.power.unbraked then x else { x with runDemand := false }

/-- Step 6: a confirmation of a wake, on to RELEASING where the conditions of R53 hold, or of a
brake release (R52, R54). -/
def Hoist.confirmed (s : State) (h : Hoist) : Hoist :=
  if h.power = .waking ∧ h.delay = 0 ∧ h.reported = some .powered then
    if s.mayRelease h.wakeConfirmed then h.wakeConfirmed.release else h.wakeConfirmed
  else if h.power = .releasing ∧ h.delay = 0 ∧ h.reported = some .released then h.releaseConfirmed
  else h

/-- The group record after step 8: a RETRY group that has counted its hold out, with no faulted
member left where the self-clear has emptied the set, returns to IDLE (R106, R135, R142). -/
def TrussGroup.returnedIf (empty : Bool) (r : TrussGroup) : TrussGroup :=
  if empty ∧ r.state = .held ∧ r.policy = .retry ∧ r.retry = 0 then
    { r with causes := .empty, retry := 0, state := .idle }
  else r

/-- The record as steps 1 to 3 leave it (R135). -/
def State.reportTaken (s : State) (h : Hoist) (words : Vector Word 4) (reported : Drive) : Hoist :=
  { h.reports words reported with
    causes := { h.causes with statusLost := s.causesBefore h .statusLost } }

/-- The set with some causes in it besides. -/
def HoistCauses.withAll (cs : List HoistCause) (x : HoistCauses) : HoistCauses :=
  cs.foldl (fun x c => x.put c true) x

/-- A taken arrival in GUARD (R135). `u` is the state after its steps 1 to 3. -/
def TakenInGuard (slot : Slot) (h : Hoist) (words : Vector Word 4) (reported : Drive)
    (s t : State) : Prop :=
  let x := s.reportTaken h words reported
  let measured : Int := words[0].toInt
  let load : Nat := words[1].toNat % 65536
  let added := s.causesAdded h x measured load
  let marked := { x with causes := x.causes.withAll added }
  let records := added.map fun c => causeRecord slot c (x.causeValues measured load c)
  ∃ u, (∀ k, u.hoist k = if k = slot then some x else s.hoist k) ∧
    KeepsAllBut [.statusCopies, .counters, .hoists] s u ∧ u.writer.state = s.writer.state ∧
    (added ≠ [] → x.causes = .empty →
      FirstCausesTaken slot (marked.fallen s.confirmFrames) (Hoist.confirmed s) records u t) ∧
    (added ≠ [] → x.causes ≠ .empty →
      FurtherCausesTaken slot (marked.fallenFurther.confirmed s) records u t) ∧
    (added = [] →
      let y := x.offIfMissing.confirmed s
      (x.group = none → HoistAlone slot y u t) ∧
      ∀ g r, x.group = some g → s.group g = some r →
        (r.state = .moving →
          ∃ v, HoistAlone slot y u v ∧ v.writer.state = s.writer.state ∧ SpreadChecked g r v t) ∧
        (r.state ≠ .moving →
          (∀ k, t.hoist k = if k = slot then some y else s.hoist k) ∧
            (∀ k, t.group k = if k = g then
                some (r.returnedIf (decide (h.causes ≠ .empty) && decide (x.causes = .empty) &&
                  r.members.all fun m => m = slot || !s.faulted m))
              else s.group k) ∧
            KeepsAllBut [.hoists, .groups] u t))

/-! ### A taken arrival in BYPASS (R62, R104, R145) -/

/-- The group of a hoist overloaded in BYPASS: a first cause holds it, and a new cause restarts the
retry hold of a HELD one (R104, R105). -/
def TrussGroup.overloadedMember (first new : Bool) (r : TrussGroup) : TrussGroup :=
  if first then r.heldBy { r.causes with memberFault := true }
  else if new ∧ r.state = .held then r.heldBy r.causes else r

/-- What a taken arrival in BYPASS does: no power state, drive command or other hoist changes. An
overload, new or not, is handed to the halt latch; a new one is recorded, and a first one holds the
group (R62, R104, R145). -/
def TakenInBypass (slot : Slot) (h : Hoist) (words : Vector Word 4) (reported : Drive)
    (s t : State) : Prop :=
  let x := s.reportTaken h words reported
  let load : Nat := words[1].toNat % 65536
  let overloaded : Bool := x.overloadThreshold < load
  let first : Bool := overloaded && decide (x.causes = .empty)
  let new : Bool := overloaded && !x.causes.overload
  let latches : Bool := overloaded && !(s.halt.latched && s.halt.causes.overloadBypass)
  let values : Word × Word := (unsignedWord load, unsignedWord x.overloadThreshold)
  let returns := decide (h.causes ≠ .empty) && decide (x.causes = .empty) && !overloaded
  (∀ k, t.hoist k = if k = slot then
      some { x with causes := { x.causes with overload := x.causes.overload || overloaded } }
    else s.hoist k) ∧
  (∀ g, t.group g = (s.group g).map fun r =>
    if x.group = some g then
      (r.overloadedMember first new).returnedIf
        (returns && r.members.all fun m => m = slot || !s.faulted m)
    else r) ∧
  Handed ((if new then [causeRecord slot .overload values] else []) ++
      (if first then groupRecords x.group s else []) ++
      (if latches then [⟨.halt .overloadBypass, some slot.val, values.1, values.2⟩] else [])) s t ∧
  t.halt = (if overloaded then
    { s.halt with
      latched := true
      causes := if s.halt.latched then { s.halt.causes with overloadBypass := true }
        else { HaltCauses.empty with overloadBypass := true } }
    else s.halt) ∧
  (overloaded = true → t.lines.enable = false ∧ t.lines.fault = true) ∧
  KeepsAllBut [.statusCopies, .counters, .hoists, .groups, .faultQueue, .halt] s t
where
  /-- The GROUP record of the hoist's group, if it has one. -/
  groupRecords (group : Option GroupNo) (s : State) : List FaultRecord :=
    match group with
    | none => []
    | some g =>
      match s.group g with
      | none => []
      | some r => memberFaultRecords g r slot s

/-- The decision of an arrival, in the order of R133. -/
def ArrivalDecided (slot : Slot) (words : Vector Word 4) (s t : State) : Prop :=
  match s.hoist slot with
  | none => KeepsAllBut [.statusCopies] s t
  | some h =>
    let marks := (s.statusCopy slot).marks.toList.count true
    match driveStateOf words[2] with
    | none => ArrivalRefused slot words marks s t
    | some reported =>
      if marks < 3 then ArrivalRefused slot words marks s t
      else if h.stamp = some (words[3].setWidth 16) then
        Counted [.arrivalsRefused] s t ∧ KeepsAllBut [.statusCopies, .counters] s t
      else
        Counted [.arrivalsTaken] s t ∧
          if s.loader.gate = .guard then TakenInGuard slot h words reported s t
          else TakenInBypass slot h words reported s t
where
  /-- A refused arrival: its notice and its count (R134). -/
  ArrivalRefused (slot : Slot) (words : Vector Word 4) (marks : Nat) (s t : State) : Prop :=
    Handed [⟨.notice .statusIncomplete, some slot.val, (words[3].setWidth 16).setWidth 32,
        BitVec.ofNat 32 marks⟩] s t ∧
      Counted [.arrivalsRefused] s t ∧
      KeepsAllBut [.statusCopies, .counters, .faultQueue] s t

/-! ### Counts of one hoist (R51, R60) -/

/-- Whether a hoist in WAKING or RELEASING makes its last count toward the confirm limit (R55). -/
def State.lastConfirm (s : State) (h : Hoist) : Bool :=
  (h.power = .waking || h.power = .releasing) && h.delay = 0 &&
    s.confirmLimit.getD 0 ≤ h.confirm + 1

/-- Whether a hoist in RUN parks (R60). -/
def State.parksNow (s : State) (slot : Slot) (h : Hoist) : Bool :=
  h.power = .run && s.idlePark.getD 0 ≠ 0 && s.idlePark.getD 0 ≤ h.sinceStep && h.goal = none &&
    !s.linked (match h.group with
      | none => .hoist slot
      | some g => .group g)

/-- The counters of a hoist after a FRAME arrival in GUARD that brings it no cause: the four steps
of R51, the idle park test among them, and then the status age (R138). -/
def Hoist.countedOn (s : State) (slot : Slot) (h : Hoist) : Hoist :=
  let h1 := { h with settle := h.settle - 1 }
  let h2 :=
    if h.power = .waking ∨ h.power = .releasing then
      if 0 < h.delay then { h1 with delay := h.delay - 1 } else { h1 with confirm := h.confirm + 1 }
    else h1
  let h3 := { h2 with sinceStep := if h.sinceStep < 65535 then h.sinceStep + 1 else 65535 }
  let h4 := if s.parksNow slot h3 then h3.fallToStandby (s.confirmLimit.getD 0) else h3
  { h4 with age := h.age + 1 }

/-! ### CLEAR_FAULT for a hoist (R144) -/

/-- Whether CLEAR_FAULT leaves a cause, by the hoist's latest taken values. -/
def Hoist.staysFaulted (statusTimeout : Nat) (h : Hoist) : HoistCause → Bool
  | .overload => h.load.any fun load => h.overloadThreshold < load
  | .statusLost => statusTimeout ≤ h.age
  | .driveFault => h.driveCode.isSome
  | .limitOverrun => h.measured.any h.pastItsLimits
  | .slack => false
  | .follow => false
  | .stateMismatch => false
  | .confirmTimeout => false

/-- The group record after CLEAR_FAULT has emptied a member's set: a RETRY group that has counted
its hold out, with no other member faulted, returns to IDLE (R106, R144). -/
def State.quietGroup (s : State) (slot : Slot) (r : TrussGroup) : TrussGroup :=
  if r.state = .held ∧ r.policy = .retry ∧ r.retry = 0 ∧
      ∀ m ∈ r.members, m = slot ∨ s.faulted m = false then
    { r with causes := .empty, retry := 0, state := .idle }
  else r

/-- An accepted CLEAR_FAULT for a hoist (R144). -/
def HoistCleared (slot : Slot) (s t : State) : Prop :=
  ∃ h causes, s.hoist slot = some h ∧
    (∀ k, t.hoist k = if k = slot then some { h with causes := causes } else s.hoist k) ∧
    (∀ c, causes.has c = (h.causes.has c && h.staysFaulted (s.statusTimeout.getD 0) c)) ∧
    KeepsAllBut [.hoists, .groups, .requests, .captured] s t ∧
    if causes = .empty then
      Answered 11 .done (BitVec.ofNat 32 (allHoistCauses.countP h.causes.has)) s t ∧
        ∀ g, t.group g = (s.group g).map fun r =>
          if h.group = some g ∧ h.causes ≠ .empty then s.quietGroup slot r else r
    else
      Answered 11 .refusedFault (BitVec.ofNat 32 ((allHoistCauses.map fun c =>
          if causes.has c then 2 ^ hoistCauseBit c else 0).sum)) s t ∧
        ∀ g, t.group g = s.group g

/-! ### The halt (R151 to R154) -/

/-- A hoist at the latch event, its HALT record composed (R61, R84, R153). -/
def Hoist.halted (confirmLimit : Nat) (h : Hoist) : Hoist :=
  let down :=
    if h.power.unbraked then h.fallToStandby confirmLimit else { h with runDemand := false }
  { down with goal := none, commandDirty := false, syncDue := false }

/-- The records of a batch in hand that a halt discards: all, but for one whose first word has been
granted (R123). -/
def BatchInHand.unbegun (state : WriterState) (b : BatchInHand) : List SetpointRecord :=
  if state = .writing ∧ b.granted ≠ 0 then b.records.tail else b.records

/-- A halt discards a SYNC record of a slot before it is written: in the batch in hand, or in a HALT
batch behind it (R123). -/
def State.losesSync (s : State) (slot : Slot) : Bool :=
  s.writer.state ≠ .idle &&
    ((s.writer.hand.any fun b => (b.unbegun s.writer.state).any fun r =>
        r.slot = slot && r.kind = .sync) ||
      s.writer.following.any fun b => b.records.any fun r => r.slot = slot && r.kind = .sync)

/-- The records of the HALT batch: every present hoist in slot order, of kind SYNC where sync is due
or where its SYNC record is discarded (R118, R125, R153; log entry 31). -/
def haltRecords (s t : State) : List SetpointRecord :=
  allSlots.filterMap fun slot =>
    match s.hoist slot, t.hoist slot with
    | some h, some h' => some ⟨slot, h.commanded, h'.command,
        if h.syncDue || s.losesSync slot then .sync else .halt, 0⟩
    | _, _ => none

/-- The HALT batch at the Release Writer: handed to an IDLE one, in place of a batch of which no
word has been granted, or behind the record whose first word has been (R123). -/
def HaltBatch (s t : State) : Prop :=
  t.pacer.batchNumber = s.pacer.batchNumber + 1 ∧ t.writer.state ≠ .idle ∧
    (match s.writer.state, s.writer.hand with
    | .writing, some b =>
      if b.granted = 0 then Alone s t
      else
        t.writer.hand.map BatchInHand.content =
            some (b.number, b.records.take 1, b.abandoned || decide (1 < b.records.length)) ∧
          t.writer.following = some ⟨s.pacer.batchNumber + 1, haltRecords s t⟩
    | _, _ => Alone s t) ∧
    (s.writer.state ≠ .idle → t.writer.owed = [])
where
  /-- The HALT batch is the batch in hand. -/
  Alone (s t : State) : Prop :=
    t.writer.hand.map BatchInHand.content =
      some (s.pacer.batchNumber + 1, haltRecords s t, false)

/-- A channel event: the channel takes its line's level and the other stands. Where the two then
agree the discrepancy count is 0 and a required cycle may advance (R148, R149, R150). -/
def ChannelMoved (c : Channel) (x : ChannelState) (s t : State) : Prop :=
  t.halt.channel c = x ∧ (∀ k, k ≠ c → t.halt.channel k = s.halt.channel k) ∧
    if t.halt.channelA = t.halt.channelB then
      t.halt.discrepancy = 0 ∧
        t.halt.cycle =
          if s.halt.cycle = .awaitOpen ∧ x = .opened then .awaitClose
          else if s.halt.cycle = .awaitClose ∧ x = .closed then .notRequired
          else s.halt.cycle
    else t.halt.discrepancy = s.halt.discrepancy ∧ t.halt.cycle = s.halt.cycle

/-- The effects of the latch in GUARD (R152, R153). -/
structure RigHalted (s t : State) : Prop where
  enable : t.lines.enable = false
  hoists : HoistsBecome (fun _ h => h.halted s.confirmFrames) s t
  movers : Unlinked s.linkedMovers s t ∧ ∀ q, (t.queue q).movers = []
  groups : GroupsStopped s.linkedMovers s t
  pacer : PacerSettingsStand s t
  batch : if s.presentSlots = [] then NoBatch s t else HaltBatch s t

/-- A cause handed to the halt latch, and what follows by the latch and the gate (R151, R152, R154).
`changed` are the parts the event changes beside. -/
def CauseLatched (c : HaltCause) (subject : Option Nat) (a b : Word) (changed : List Part)
    (s t : State) : Prop :=
  if s.halt.latched = true then
    t.halt.latched = true ∧
      if s.halt.causes.has c = true then
        t.halt.causes = s.halt.causes ∧ KeepsAllBut (.halt :: changed) s t
      else
        t.halt.causes = s.halt.causes.add c ∧ Handed [⟨.halt c, subject, a, b⟩] s t ∧
          KeepsAllBut (.halt :: .faultQueue :: changed) s t
  else
    t.halt.latched = true ∧ t.halt.causes = HaltCauses.empty.add c ∧
      Handed [⟨.halt c, subject, a, b⟩] s t ∧ t.lines.enable = false ∧ t.lines.fault = true ∧
      if s.loader.gate = .guard then
        RigHalted s t ∧ KeepsAllBut (.halt :: .faultQueue :: .hoists :: .groups :: .pacer ::
          .batches :: changed) s t
      else KeepsAllBut (.halt :: .faultQueue :: changed) s t

end Sys2Proof.Machine
end

