-- ==== Sys2Proof/Effects/Frames.lean ====
section
/-! DEFINITION. What a FRAME arrival, a service of the Pacer and a pacing batch do to the state, in
the words of Safety.lean (chapters 3, 6, 7 and 9). -/

namespace Sys2Proof.Machine

/-! ### FRAME arrivals (R51, R106, R112, R138, R149, R171) -/

/-- What a FRAME arrival does in every gate mode and in every order of its parts: the frame count,
the comparison of the stop channels, a cadence snapshot, and a frame that meets a busy Release
Writer. -/
structure FrameCounted (s t : State) : Prop where
  count : t.report.frameCount = s.report.frameCount + 1
  agree : s.halt.channelA = s.halt.channelB → t.halt = { s.halt with discrepancy := 0 }
  differ : s.halt.channelA ≠ s.halt.channelB →
    (s.halt.discrepancy < 7 → t.halt = { s.halt with discrepancy := s.halt.discrepancy + 1 }) ∧
    (s.halt.discrepancy = 7 →
      t.halt.discrepancy = 8 ∧ t.halt.cycle = .awaitOpen ∧ t.halt.latched = true ∧
        t.halt.causes.stopDiscrepancy = true) ∧
    (8 ≤ s.halt.discrepancy → t.halt = s.halt)
  busy : s.loader.gate = .guard → s.pacer.frozen = false → s.writer.state ≠ .idle →
    t.pacer.pendingFrame = true ∧
      Counted (if s.pacer.pendingFrame then [.frameOverruns] else []) s t
  snapshot : s.report.snapshot = .notTaken →
    (∀ k offset, s.loader.gate.installed = true → s.report.cadence = some (k, offset) →
      (s.report.frameCount + 1).toNat % (16 * k) = offset →
      ∃ v, v.frameCount = s.report.frameCount + 1 ∧
        (t.report.snapshot = .owed v ∨ t.report.snapshot = .writing v 0)) ∧
    ((∀ k offset, s.loader.gate.installed = true → s.report.cadence = some (k, offset) →
      (s.report.frameCount + 1).toNat % (16 * k) ≠ offset) →
      t.report.snapshot = .notTaken)
  outside : s.loader.gate ≠ .guard → KeepsAllBut [.frameCount, .halt, .faultQueue, .free] s t
  frame : KeepsAllBut [.frameCount, .halt, .faultQueue, .free, .hoists, .groups, .pacer, .batches,
    .counters] s t

/-- A cause that a FRAME arrival in GUARD brings a hoist in every order of its parts: STATUS_LOST,
or the CONFIRM_TIMEOUT of a wake, which no part of the arrival ends before its count (R55, R138).
-/
def State.takesCause (s : State) (h : Hoist) : Bool :=
  s.statusTimeout.getD 0 ≤ h.age && !h.causes.statusLost ||
    h.power = .waking && s.lastConfirm h && !h.causes.confirmTimeout

/-- No cause in any order of the parts. A hoist that a record of the same arrival may send from
STANDBY to RELEASING has a count left there (R53, R55, R138). -/
def State.takesNoCause (s : State) (h : Hoist) : Bool :=
  (h.age < s.statusTimeout.getD 0 || h.causes.statusLost) &&
    (!s.lastConfirm h || h.causes.confirmTimeout) &&
    !(h.power = .standby && h.syncDue && h.brakeDelay = 0 && s.confirmLimit.getD 0 ≤ 1)

/-- No hoist makes its last confirm count or stands at the status timeout, and the arrival latches
no halt. -/
def QuietFrame (s : State) : Prop :=
  (∀ slot h, s.hoist slot = some h → s.lastConfirm h = false ∧ h.age < s.statusTimeout.getD 0) ∧
    (s.halt.channelA = s.halt.channelB ∨ s.halt.discrepancy ≠ 7 ∨ s.halt.latched = true)

/-- A HELD group's record after the count of a FRAME arrival in GUARD that brings no member a cause
(R106, R109). -/
def TrussGroup.countedOn (s : State) (r : TrussGroup) : TrussGroup :=
  if r.policy = .retry ∧ 0 < r.retry then
    if r.retry = 1 ∧ ∀ m ∈ r.members, s.faulted m = false then
      { r with causes := .empty, retry := 0, state := .idle }
    else { r with retry := r.retry - 1 }
  else r

/-- A queue's rate counter after a frame taken (R113). -/
def PacingQueue.raised (q : PacingQueue) : Nat :=
  if q.rate + q.increment.getD 0 < 256 then q.rate + q.increment.getD 0
  else q.rate + q.increment.getD 0 - 256

/-- What a FRAME arrival does in GUARD, whatever the order of its parts (R51, R106, R112, R138). -/
structure FrameCountedInGuard (s t : State) : Prop where
  ages : ∀ slot h, s.hoist slot = some h → ∃ y, t.hoist slot = some y ∧
    y.age = if h.age < s.statusTimeout.getD 0 then h.age + 1 else h.age
  /-- Every present hoist is counted on (R51, R60, R138). -/
  hoists : QuietFrame s → s.writer.state ≠ .idle ∨ s.pacer.frozen = true →
    HoistsBecome (fun slot h => h.countedOn s slot) s t
  /-- Every HELD RETRY group is counted on (R106). -/
  retries : TrussesHeld s → ∀ g r, s.group g = some r → r.state = .held →
    (∀ m ∈ r.members, ∀ h, s.hoist m = some h → s.takesNoCause h = true) →
    t.group g = some (r.countedOn s)
  /-- A group with a member that takes a cause is HELD, its hold run again from the retry hold
  (R101, R105, R106). -/
  held : TrussesHeld s → ∀ g r m h, s.group g = some r → m ∈ r.members → s.hoist m = some h →
    s.takesCause h = true →
    ∃ x, t.group g = some x ∧ x.state = .held ∧ (r.policy = .retry → x.retry = r.retryHold)
  frozen : s.pacer.frozen = true → (∀ q, (t.queue q).rate = (s.queue q).rate ∧
    (t.queue q).due = (s.queue q).due) ∧ t.pacer.pendingFrame = s.pacer.pendingFrame
  /-- An IDLE Release Writer with an unfrozen Pacer takes the frame (R112, R113). -/
  taken : QuietFrame s → s.writer.state = .idle → s.pacer.frozen = false →
    (∀ q, (t.queue q).rate = (s.queue q).raised) ∧ t.pacer.pendingFrame = false

/-! ### Walks (R115, R116) -/

/-- A hoist whose needed direction is against its last one, before the dwell has run out (R116). -/
def Hoist.reversing (dwell : Nat) (h : Hoist) : Bool :=
  h.sinceStep < dwell && h.goal.any fun g =>
    h.commanded < (g : Int) && h.lastDirection = some .down ||
      (g : Int) < h.commanded && h.lastDirection = some .up

/-- A slot that keeps its mover from being stepped: not in RUN, or reversal-delayed (R115, R116). -/
def State.keepsMoverBack (s : State) (slot : Slot) : Bool :=
  !(s.hoist slot).any fun h => h.power = .run && !h.reversing (s.pacer.reversalDwell.getD 0)

/-- A hoist with an active goal left to reach (R115). -/
def State.hasGoalLeft (s : State) (slot : Slot) : Bool :=
  (s.hoist slot).any fun h => h.goal.any fun g => (g : Int) ≠ h.commanded

/-- A walk that has stepped a mover: its PACE records, its share of the budget, and a mark where it
has no goal left (R115). -/
def Walk.step (queue : QueueNo) (m : Mover) (w : Walk) : Walk :=
  let s := w.service.state
  let slots := s.moverSlots m
  let paced := paceHoists queue (s.moverStep m) slots s
  { w with
    service := { w.service with
      state := paced.2
      budget := w.service.budget - slots.length
      records := w.service.records ++ paced.1 }
    marked := if slots.any paced.2.hasGoalLeft then w.marked else w.marked ++ [m] }

/-- The walk of a list of movers goes mover by mover, by the table of R115. -/
def WalksByTheTable (queue : QueueNo) (m : Mover) (rest : List Mover) (w : Walk) : Prop :=
  let s := w.service.state
  let slots := s.moverSlots m
  if slots.any s.hasGoalLeft = false then
    walk queue (m :: rest) w = walk queue rest { w with marked := w.marked ++ [m] }
  else if slots.any s.keepsMoverBack = true then walk queue (m :: rest) w = walk queue rest w
  else if w.service.budget < slots.length then
    walk queue (m :: rest) w = { w with stop := some m }
  else walk queue (m :: rest) w = walk queue rest (w.step queue m)

/-! ### The service of a queue (R114, R115, R117, R119) -/

/-- The movers of a queue from its resume point on, or from its head (R115, R119). -/
def WalkStartsAt (q : PacingQueue) : Prop :=
  (q.resume = none → q.walkFrom = q.movers) ∧ (q.resume = some .tail → q.walkFrom = []) ∧
    ∀ m, q.resume = some (.mover m) → m ∈ q.movers →
      ∃ before after, q.movers = before ++ m :: after ∧ m ∉ before ∧ q.walkFrom = m :: after

/-- What the end of a queue's walk `w` leaves of the service: the marked movers unlinked, and the
queue served fully, or partly with the resume point at the mover that did not fit. -/
structure QueueServed (bank : Bank) (i : Fin 4) (w : Walk) (v : Service) : Prop where
  budget : v.budget = w.service.budget
  records : v.records = w.service.records
  unlinked : ∀ k, (v.state.queue k).movers =
      (w.service.state.queue k).movers.filter (fun m => m ∉ w.marked) ∧
    (v.state.queue k).rate = (w.service.state.queue k).rate ∧
    (v.state.queue k).increment = (w.service.state.queue k).increment
  others : ∀ k, k ≠ bank.queue i →
    (v.state.queue k).due = (w.service.state.queue k).due ∧
      ResumesWithout w.marked (w.service.state.queue k) (v.state.queue k)
  groups : GroupsStopped w.marked w.service.state v.state
  settings : v.state.pacer.budget = w.service.state.pacer.budget ∧
    v.state.pacer.reversalDwell = w.service.state.pacer.reversalDwell ∧
    v.state.pacer.trim = w.service.state.pacer.trim ∧
    v.state.pacer.batchNumber = w.service.state.pacer.batchNumber ∧
    v.state.pacer.pendingFrame = w.service.state.pacer.pendingFrame ∧
    v.state.pacer.frozen = w.service.state.pacer.frozen
  full : w.stop = none →
    v.ended = false ∧ (v.state.queue (bank.queue i)).due = false ∧
      (v.state.queue (bank.queue i)).resume = none ∧
      Counted [.servicesGranted (bank.queue i)] w.service.state v.state ∧
      v.state.pacer.nextStart bank = i + 1 ∧
      ∀ other, other ≠ bank →
        v.state.pacer.nextStart other = w.service.state.pacer.nextStart other
  partly : ∀ m, w.stop = some m →
    v.ended = true ∧ (v.state.queue (bank.queue i)).due = true ∧
      (v.state.queue (bank.queue i)).resume = some (.mover m) ∧
      Counted [] w.service.state v.state ∧
      ∀ each, v.state.pacer.nextStart each = w.service.state.pacer.nextStart each
  frame : KeepsAllBut [.groups, .pacer, .counters] w.service.state v.state

/-- A queue is served where its pending flag is set and the frame's service has not ended (R114). -/
def ServesAQueue (bank : Bank) (v : Service) (i : Fin 4) : Prop :=
  let q := v.state.queue (bank.queue i)
  if v.ended = false ∧ q.due = true then
    WalkStartsAt q ∧
      QueueServed bank i (walk (bank.queue i) q.walkFrom ⟨v, [], none⟩) (serveQueue bank v i)
  else serveQueue bank v i = v

/-- A bank's queues in turn: the one with a resume point first, then round robin from the bank's
next start of that moment (R114). -/
def ServesABank (bank : Bank) (v : Service) : Prop :=
  let inTurn (v : Service) : Service :=
    let n := v.state.pacer.nextStart bank
    serveQueue bank
      (serveQueue bank (serveQueue bank (serveQueue bank v n) (n + 1)) (n + 2)) (n + 3)
  ((∀ i, (v.state.queue (bank.queue i)).resume = none) → serveBank bank v = inTurn v) ∧
    ∀ i, (v.state.queue (bank.queue i)).resume ≠ none →
      (∀ j, (v.state.queue (bank.queue j)).resume ≠ none → j = i) →
      serveBank bank v = inTurn (serveQueue bank v i)

/-! ### A frame taken (R112, R113, R120) -/

/-- The rate counters of a frame taken: a queue whose sum reaches 256 is due a service, and misses
one where it was due already (R113). -/
structure RatesRaised (s t : State) : Prop where
  queues : ∀ q, t.queue q = { s.queue q with
    rate := (s.queue q).raised
    due := (s.queue q).due || decide (256 ≤ (s.queue q).rate + (s.queue q).increment.getD 0) }
  missed : Counted ((allQueues.filter fun q => (s.queue q).due &&
    decide (256 ≤ (s.queue q).rate + (s.queue q).increment.getD 0)).map .servicesMissed) s t
  settings : t.pacer.batchNumber = s.pacer.batchNumber ∧ PacerSettingsStand s t
  frame : KeepsAllBut [.pacer, .counters] s t

/-- The slots that take a state-kind record behind the PACE records (R48, R120). -/
def State.stateRecordsDue (s : State) (paced : List SetpointRecord) : List Slot :=
  allSlots.filter fun slot =>
    (s.hoist slot).any (fun h => h.commandDirty || h.syncDue) &&
      !(paced.map SetpointRecord.slot).contains slot

/-- The pacing batch of a frame, from the state its service left: the PACE records, then one STATE
or SYNC record for each other hoist that is due one, in slot order; no record makes no batch (R117,
R120). -/
structure PacingBatchMade (paced : List SetpointRecord) (s t : State) : Prop where
  batch :
    let records := paced ++ recordsOf .state (s.stateRecordsDue paced) s
    if records = [] then t.writer = s.writer ∧ t.pacer.batchNumber = s.pacer.batchNumber
    else t.pacer.batchNumber = s.pacer.batchNumber + 1 ∧
      t.writer = { s.writer with
        state := .starting
        hand := some ⟨s.pacer.batchNumber + 1, records, 0, false⟩ }
  hoists : HoistsBecome (fun slot h =>
    if slot ∈ s.stateRecordsDue paced then h.composedIn s else h) s t
  queues : ∀ q, t.queue q = s.queue q
  settings : PacerSettingsStand s t
  exhausted : Counted
    (if allQueues.any (fun q => (s.queue q).due) then [.budgetExhaustions] else []) s t
  frame : KeepsAllBut [.hoists, .pacer, .batches, .counters] s t

end Sys2Proof.Machine
end

