-- ==== Sys2Proof/Effects/Rig.lean ====
section
/-! DEFINITION. What the requests and the ends of the Rig Loader, RESUME and the Rig Lock do to the
state, in the words of Safety.lean (chapters 2, 9 and 10). -/

namespace Sys2Proof.Machine

/-! ### Teardown (R43) -/

/-- The parts a teardown may change. -/
def tornParts : List Part :=
  [.regions, .loader, .lock, .hoists, .limits, .groups, .goals, .grid, .pacer, .batches,
    .statusCopies, .faultQueue, .ring, .statistics]

/-- Whether an operation in flight writes a word that a teardown discards: a record word of the
batch in hand, or a word of a snapshot (R126, R171). -/
def State.writesDiscarded (s : State) (op : PortOp) : Bool :=
  op.claimant = .releaseWriter ||
    op.claimant = .reportWriter && s.report.claim.any fun c => c.word = .snapshot

/-- The installed configuration and the state built on it are gone; what R43 keeps stands. -/
structure TornDown (s t : State) : Prop where
  regions : t.regions = []
  candidate : t.loader.candidate = []
  ringKept : t.loader.previousRing = s.loader.previousRing
  copies : ∀ slot, t.statusCopy slot = .clear
  lock : t.lock = ⟨.noPassword, none, s.lock.keys⟩
  hoists : ∀ slot, t.hoist slot = none
  groups : ∀ g, t.group g = none
  limits : t.confirmLimit = none ∧ t.idlePark = none ∧ t.statusTimeout = none
  goals : t.goals = ⟨s.goals.mode, none, []⟩
  grid : t.grid = none
  queues : ∀ q, t.queue q = ⟨none, 0, false, [], none⟩
  pacer : t.pacer.budget = none ∧ t.pacer.reversalDwell = none ∧ t.pacer.pendingFrame = false ∧
    t.pacer.frozen = false
  pacerKept : t.pacer.nextStartA = s.pacer.nextStartA ∧ t.pacer.nextStartB = s.pacer.nextStartB ∧
    t.pacer.trim = s.pacer.trim ∧ t.pacer.batchNumber = s.pacer.batchNumber
  writer : t.writer = ⟨.idle, none, none, []⟩
  cadence : t.report.cadence = none
  snapshot : t.report.snapshot = .notTaken
  /-- A word already granted the memory port completes, for no one where it is of the batch in hand
  or of a snapshot (R126, R171). -/
  inFlight : ∀ op, s.memPort.op = some op →
    t.memPort.op = some { op with live := op.live && !s.writesDiscarded op }
  /-- No word of a snapshot stays claimed, and every other claim does (R171). -/
  claim : (∀ c, t.report.claim = some c → c.word ≠ .snapshot) ∧
    ∀ c, s.report.claim = some c → c.word ≠ .snapshot → t.report.claim = some c
  queue : t.report.queue = if s.report.recordWrite.isSome then s.report.queue.take 1 else []
  ring : t.report.ring = if s.report.recordWrite.isSome then s.report.ring else none
  reportKept : t.report.dropped = s.report.dropped ∧ t.report.writeIndex = s.report.writeIndex ∧
    t.report.lastSequence = s.report.lastSequence ∧
    t.report.statsRequest = s.report.statsRequest

/-- The drive link engine's held access waits for the memory port, and every other place of it
stands (R9). -/
def HeldReadReleased (s t : State) : Prop :=
  t.port.places.driveLink =
    match s.port.places.driveLink with
    | .held a => .waiting a
    | .empty => .empty
    | .waiting a => .waiting a

/-! ### LOAD and RESTART (R29, R30, R42) -/

/-- Some hoist is RELEASING or RUN, or some mover is linked (R29). -/
def RigMoves (s : State) : Prop :=
  (∃ slot h, s.hoist slot = some h ∧ (h.power = .releasing ∨ h.power = .run)) ∨
    s.linkedMovers ≠ []

/-- An accepted LOAD (R30). -/
structure LoadBegun (s t : State) : Prop where
  pending : InHand 1 s t
  torn : TornDown s t
  gate : t.loader.gate = .loading
  phase : t.loader.phase = .reading 0
  result : t.loader.result = .inProgress
  detail : t.loader.detail = none
  failed : t.loader.failed = s.loader.failed
  enable : t.lines.enable = false
  released : HeldReadReleased s t
  frame : KeepsAllBut (tornParts ++ [.requests, .captured]) s t

/-- An accepted RESTART (R42). -/
structure RigRestarted (s t : State) : Prop where
  answer : Answered 2 .done 0 s t
  torn : TornDown s t
  loader : t.loader = { s.loader with gate := .unconfigured, candidate := [] }
  enable : t.lines.enable = false
  released : HeldReadReleased s t
  frame : KeepsAllBut (tornParts ++ [.requests, .captured]) s t

/-! ### The end of VALIDATING (R37, R38) -/

/-- A processor write to the configuration block. -/
def ConfigurationWrite (a : Access) : Prop :=
  a.mid = .processor ∧ a.op ≠ .read ∧ 0x3FF000 ≤ a.addr.toNat ∧ a.addr.toNat ≤ 0x3FF57F

/-- The processor's held access, if there is one, is its write to the configuration block, its other
accesses stay on the bus behind it, and the drive link engine's place holds no held access (R1, R9,
R15). -/
def HeldThroughLoad (s : State) : Prop :=
  (match s.port.places.processor with
    | .held a => ConfigurationWrite a
    | .empty => s.port.bus.processor = []
    | .waiting _ => True) ∧
    (∀ a ∈ s.port.bus.processor, a.mid = .processor) ∧
    match s.port.places.driveLink with
    | .held _ => False
    | .empty => True
    | .waiting _ => True

/-- A failed load (R37). -/
structure LoadFails (step : LoadStep) (d : LoadDetail) (r : Request) (s t : State) : Prop where
  result : t.requests.result = .loadFailed
  detail : t.requests.detail = BitVec.ofNat 32 (16 + stepNumber step)
  pending : t.requests.state.closes r s t
  torn : TornDown s t
  gate : t.loader.gate = .unconfigured
  phase : t.loader.phase = .idle
  loadResult : t.loader.result = .failed step
  loadDetail : t.loader.detail = some d
  failed : t.loader.failed = true
  enable : t.lines.enable = false
  fault : t.lines.fault = true
  /-- The held write is classified again as PASS (R15). -/
  released : t.port.places.processor =
    match s.port.places.processor with
    | .held a => .waiting a
    | .empty => .empty
    | .waiting a => .waiting a
  frame : KeepsAllBut (tornParts ++ [.requests]) s t

/-- A new hoist record's dynamic fields (R45). -/
def FreshHoist (h : Hoist) : Prop :=
  h.power = .off ∧ h.command = .off ∧ h.commandDirty = false ∧ h.runDemand = false ∧ h.delay = 0 ∧
    h.confirm = 0 ∧ h.settle = 0 ∧ h.commanded = 0 ∧ h.synced = false ∧ h.syncDue = false ∧
    h.lastDirection = none ∧ h.sinceStep = 0 ∧ h.goal = none ∧ h.measured = none ∧
    h.load = none ∧ h.reported = none ∧ h.driveCode = none ∧ h.stamp = none ∧ h.age = 0 ∧
    h.causes = .empty

/-- A hoist record's static fields from its entry (R27, R44). -/
def HoistEntry.gives (e : HoistEntry) (h : Hoist) : Prop :=
  (∀ g, h.group = some g ↔ e.group = g.val) ∧ h.queue.val = e.queue % 8 ∧ h.step = e.step ∧
    h.approachRatio = e.ratio ∧ h.lowerLimit = e.lower ∧ h.upperLimit = e.upper ∧
    h.overloadThreshold = e.overload ∧ h.slackThreshold = e.slack ∧ h.followLimit = e.follow ∧
    h.approachBand = e.band ∧ h.wakeDelay = e.wake ∧ h.brakeDelay = e.brake

/-- A group record from its entry, IDLE (R26, R94, R95). -/
def GroupEntry.gives (e : GroupEntry) (r : TrussGroup) : Prop :=
  r.members.map Fin.val = e.members.map (· % 128) ∧ r.queue.val = e.queue % 8 ∧
    r.tolerance = e.tolerance ∧ (r.policy = .retry ↔ e.retries = true) ∧
    r.retryHold = e.retryHold ∧ r.state = .idle ∧ r.causes = .empty ∧ r.retry = 0 ∧
    r.lastSpread = 0

/-- The processor's accesses that meet the end of a passed load, and that the new lock state drops
where they are writes to the configuration block: the held one, and those behind it (R1, R15). -/
def State.heldWrites (s : State) : List Access :=
  match s.port.places.processor with
  | .held a => a :: s.port.bus.processor
  | .empty => []
  | .waiting _ => []

/-- The fault report queue and the dropped count after a passed load: a marker of records dropped
before it (R168), then the notices of the held writes that the new lock state drops (R15, R19). -/
def reportsAfterLoad (dropped : List Access) (s : State) : List FaultRecord × Nat :=
  let marked : List FaultRecord × Nat :=
    if 0 < s.report.dropped ∧ s.report.queue.length < 32 then
      (s.report.queue ++
        [⟨.notice .reportsDropped, none, unsignedWord s.report.dropped, s.report.frameCount⟩], 0)
    else (s.report.queue, s.report.dropped)
  dropped.foldl (fun q a => handOver .guard q ⟨.notice .lockedWrite, none, a.addr.setWidth 32, 0⟩)
    marked

/-- What a passed load leaves of the rest, where no access but the dropped writes has been taken at
its event. -/
def LoadQuiet (dropped : List Access) (s t : State) : Prop :=
  t.goals.staging = [] ∧ t.lock.keys = s.lock.keys ∧
    (t.report.queue, t.report.dropped) = reportsAfterLoad dropped s ∧
    KeepsAllBut [.regions, .loader, .lock, .hoists, .limits, .groups, .goals, .grid, .pacer,
      .faultQueue, .ring, .statistics, .requests, .bus] s t

/-- A passed load installs the candidate (R38). -/
structure LoadPasses (b : RigBlock) (r : Request) (s t : State) : Prop where
  result : t.requests.result = .done
  detail : t.requests.detail = 0
  pending : t.requests.state.closes r s t
  loader : t.loader = ⟨.guard, .idle, [], .passed, none, false, some b.ring⟩
  regions : t.regions = b.regionMap
  present : ∀ slot e, b.hoistAt slot.val = some e → e.present = true →
    ∃ h, t.hoist slot = some h ∧ FreshHoist h ∧ e.gives h
  absent : ∀ slot, (∀ e, b.hoistAt slot.val = some e → e.present = false) → t.hoist slot = none
  inUse : ∀ g e, b.groups[g.val]? = some e → e.inUse = true →
    ∃ x, t.group g = some x ∧ e.gives x
  unused : ∀ g, (∀ e, b.groups[g.val]? = some e → e.inUse = false) → t.group g = none
  queues : ∀ q, t.queue q = ⟨some (wordAt b.queues q.val).toNat, 0, false, [], none⟩
  pacer : t.pacer.budget = some (b.setting 2) ∧ t.pacer.reversalDwell = some (b.setting 9) ∧
    t.pacer.trim = b.setting 5 ∧ t.pacer.nextStartA = 0 ∧ t.pacer.nextStartB = 0 ∧
    t.pacer.pendingFrame = false ∧ t.pacer.frozen = false ∧
    t.pacer.batchNumber = s.pacer.batchNumber
  goals : t.goals.mode = (if b.setting 4 = 0 then .cued else .direct) ∧
    t.goals.keepCode = some (wordAt b.header 3)
  grid : t.grid = some b.gridSettings
  limits : t.statusTimeout = some (b.setting 6) ∧ t.confirmLimit = some (b.setting 7) ∧
    t.idlePark = some (b.setting 8)
  lock : t.lock.password = some b.passwordWords ∧
    t.lock.state =
      if b.passwordWords = Vector.replicate 4 0xFFFFFFFF then .opened
      else if b.passwordWords = Vector.replicate 4 0 then .permanent else .closed
  ring : t.report.ring = some b.ring ∧
    t.report.writeIndex =
      (if s.loader.previousRing = some b.ring then s.report.writeIndex else 0) ∧
    t.report.lastSequence = s.report.lastSequence ∧
    t.report.cadence = some (b.setting 10, b.setting 11)
  enable : t.lines.enable =
    (decide (s.halt.channelA = .closed) && decide (s.halt.channelB = .closed) && !s.halt.latched)
  /-- With lock OPEN the held write is classified again as PASS, and what stays behind it on the bus
  stays there; nothing else meets the end of the load (R1, R15, R38). -/
  opened : s.heldWrites = [] ∨ t.lock.state = .opened → LoadQuiet [] s t ∧
    (∀ a, s.port.places.processor = .held a → t.port.places.processor = .waiting a) ∧
    t.port.bus = s.port.bus
  /-- With lock CLOSED or PERMANENT the held write is dropped, and so are writes to the
  configuration block that stayed behind it, each taken as a new arrival (R1, R15). -/
  closed : t.lock.state ≠ .opened → (∀ a ∈ s.heldWrites, ConfigurationWrite a) →
    LoadQuiet s.heldWrites s t ∧
      (s.heldWrites ≠ [] → t.port.places.processor = .empty ∧ t.port.bus.processor = [])
  /-- Whatever access of the processor's stood behind a dropped write, these parts stand. -/
  frame : KeepsAllBut [.regions, .loader, .lock, .hoists, .limits, .groups, .goals, .grid, .pacer,
    .faultQueue, .ring, .statistics, .requests, .bus, .captured, .counters, .readData] s t

/-! ### SET_MODE (R40, R41) -/

/-- SET_MODE(BYPASS) accepted (R40, R129). -/
structure BypassEntered (s t : State) : Prop where
  answer : Answered 3 .done 0 s t
  loader : t.loader = { s.loader with gate := .bypass }
  hoists : HoistsBecome (fun _ h => { h with goal := none, runDemand := false }) s t
  queues : ∀ q, t.queue q = { s.queue q with movers := [], resume := none }
  groups : GroupsStopped s.linkedMovers s t
  frozen : t.pacer.frozen = true
  pending : t.pacer.pendingFrame = false
  pacerKept : t.pacer.nextStartA = s.pacer.nextStartA ∧ t.pacer.nextStartB = s.pacer.nextStartB ∧
    t.pacer.budget = s.pacer.budget ∧ t.pacer.reversalDwell = s.pacer.reversalDwell ∧
    t.pacer.trim = s.pacer.trim ∧ t.pacer.batchNumber = s.pacer.batchNumber
  frame : KeepsAllBut [.loader, .hoists, .groups, .pacer, .requests, .captured] s t

/-- The SYNC batch of every synced present hoist, composed at once by an IDLE Release Writer and
owed otherwise (R122). `t` holds the hoists as their records were composed. -/
def SyncBatch (s t : State) : Prop :=
  if s.syncedSlots = [] then NoBatch s t
  else match s.writer.state with
    | .idle =>
      BatchStarted (s.syncedSlots.filterMap fun slot =>
        (t.hoist slot).map fun h => ⟨slot, h.commanded, h.command, .sync, 0⟩) s t
    | .starting => BatchOwed (.sync s.syncedSlots) s t
    | .writing => BatchOwed (.sync s.syncedSlots) s t

/-- A sync of a synced hoist, with its record composed at once or owed (R47, R48). -/
def Hoist.syncedNow (composed : Bool) (h : Hoist) : Hoist :=
  if h.synced then
    { h with
      commanded := h.measured.getD h.commanded
      syncDue := !composed
      commandDirty := !composed && h.commandDirty }
  else h

/-- A hoist at the return to GUARD before its sync: STANDBY where a synced hoist's drive last
reported POWERED or RELEASED, and OFF otherwise (R41, R62). -/
def Hoist.returned (confirmLimit : Nat) (h : Hoist) : Hoist :=
  let up : Bool := h.synced && (h.reported = some .powered || h.reported = some .released)
  let command : Drive := if up then .powered else .off
  { h with
    power := if up then .standby else .off
    command := command
    commandDirty := h.commandDirty || h.command ≠ command
    runDemand := false
    delay := 0
    confirm := 0
    settle := if up && h.reported = some .released then confirmLimit else 0 }

/-- SET_MODE(GUARD) accepted (R41, R62). -/
structure GuardReturned (s t : State) : Prop where
  answer : Answered 3 .done 0 s t
  loader : t.loader = { s.loader with gate := .guard }
  hoists : HoistsBecome (fun _ h =>
    (h.returned s.confirmFrames).syncedNow (decide (s.writer.state = .idle))) s t
  queues : ∀ q, t.queue q = { s.queue q with rate := 0, due := false }
  frozen : t.pacer.frozen = false
  pacerKept : t.pacer.nextStartA = s.pacer.nextStartA ∧ t.pacer.nextStartB = s.pacer.nextStartB ∧
    t.pacer.budget = s.pacer.budget ∧ t.pacer.reversalDwell = s.pacer.reversalDwell ∧
    t.pacer.trim = s.pacer.trim ∧ t.pacer.pendingFrame = s.pacer.pendingFrame
  sync : SyncBatch s t
  frame : KeepsAllBut [.loader, .hoists, .pacer, .batches, .requests, .captured] s t

/-! ### RESUME (R158) -/

/-- RESUME accepted: the latch is CLEAR, and in GUARD every synced present hoist is synced. -/
structure RigResumed (s t : State) : Prop where
  halt : t.halt = { s.halt with latched := false, causes := .empty }
  enable : t.lines.enable = true
  inGuard : s.loader.gate = .guard →
    Answered 12 .done (BitVec.ofNat 32 s.syncedSlots.length) s t ∧
      HoistsBecome (fun _ h => h.syncedNow (decide (s.writer.state = .idle))) s t ∧
      SyncBatch s t ∧ (∀ q, t.queue q = s.queue q) ∧ PacerSettingsStand s t ∧
      KeepsAllBut [.halt, .hoists, .pacer, .batches, .requests, .captured] s t
  inBypass : s.loader.gate = .bypass →
    Answered 12 .done 0 s t ∧ KeepsAllBut [.halt, .requests, .captured] s t

/-! ### UNLOCK and LOCK (R162, R163) -/

/-- UNLOCK answered: the key words are cleared, the password stands, and the lock state is given. -/
def UnlockAnswered (result : ResultCode) (state : LockState) (s t : State) : Prop :=
  Answered 4 result 0 s t ∧ t.lock = ⟨state, s.lock.password, Vector.replicate 4 0⟩ ∧
    KeepsAllBut [.lock, .requests, .captured] s t

/-- The four captured key words equal the installed password (R162). -/
def KeyMatches (s : State) : Prop :=
  ∃ password, s.lock.password = some password ∧ ∀ n : Fin 4, s.lock.keys[n] = password[n]

end Sys2Proof.Machine
end

