-- ==== Sys2Proof/Effects/Words.lean ====
section
/-! DEFINITION. The memory port's grants, the Report Writer's choice of its next word, and the words
the part writes, in the words of Safety.lean (R20, R31, R124, R125, R169 to R171, R173). -/

namespace Sys2Proof.Machine

/-! ### The words of a setpoint record (R125, R173) -/

/-- Word 0 to 3 of a setpoint record of a numbered batch. -/
structure SetpointWords (r : SetpointRecord) (number : BitVec 16) (w : Nat → Word) : Prop where
  position : -2147483648 ≤ r.position → r.position < 2147483648 → (w 0).toInt = r.position
  command : (w 1).toNat = [Drive.off, .powered, .released].idxOf r.command +
    16 * [RecordKind.pace, .state, .hold, .halt, .sync].idxOf r.kind
  hint : r.hint < 4294967296 → (w 2).toNat = r.hint
  batch : (w 3).toNat = number.toNat + 65536 * r.slot.val

/-- The Release Writer has a record word to write. -/
def ReleaseWordWaits (s : State) : Prop :=
  ∃ b, s.writer.hand = some b ∧ b.records ≠ [] ∧ b.granted < 4

/-- The first word of a batch sends the drive link engine's waiting read of the setpoint area back
to HELD (R9). -/
def ReadHeldAgain (s t : State) : Prop :=
  if s.writer.state = .starting then
    match s.port.places.driveLink with
    | .waiting a =>
      if s.inSetpointArea a.addr = true ∧ a.op = .read then
        t.port = { s.port with
          places := { s.port.places with driveLink := .held a }
          order := s.port.order.filter fun m => m ≠ .driveLink }
      else t.port = s.port
    | .empty => t.port = s.port
    | .held _ => t.port = s.port
  else t.port = s.port

/-- The Release Writer is granted its next word: word `granted` of the first record left, at the
setpoint base plus 4 × slot plus `granted`, with all four byte enables (R124, R125). -/
def ReleaseWordGranted (s t : State) : Prop :=
  ∃ b r rest w, s.writer.hand = some b ∧ b.records = r :: rest ∧ SetpointWords r b.number w ∧
    t.memPort = ⟨some ⟨.releaseWriter,
      BitVec.ofNat 22 (s.regionBase .setpoint + 4 * r.slot.val + b.granted),
      .write (w b.granted) 15, true⟩, .internal⟩ ∧
    t.writer = { s.writer with
      state := .writing
      hand := some { b with granted := b.granted + 1 } } ∧
    ReadHeldAgain s t ∧ KeepsAllBut [] s t

/-- The base of a kind of region is that of the region of the kind. -/
def BaseOfRegion (s : State) : Prop :=
  ∀ before r after, s.regions = before ++ r :: after → (∀ q ∈ before, q.kind ≠ r.kind) →
    s.regionBase r.kind = r.base

/-! ### Grants (R20) -/

/-- The arbiter at a free port (R20, R31). -/
structure FreePortGranted (s t : State) : Prop where
  nothing : s.port.order = [] → ¬ReleaseWordWaits s → s.report.claim = none →
    (∀ n, s.loader.phase ≠ .reading n) → t = s
  passThrough : ∀ m rest a, s.port.order = m :: rest → s.port.places.get m = .waiting a →
    s.memPort.previous = .internal ∨
      (¬ReleaseWordWaits s ∧ s.report.claim = none ∧ ∀ n, s.loader.phase ≠ .reading n) →
    t = { s with
      memPort := ⟨some ⟨.passThrough m, a.addr, a.op, true⟩, .passThrough⟩
      port := { s.port with order := rest } }
  releaseWriter : s.port.order = [] ∨ s.memPort.previous = .passThrough → ReleaseWordWaits s →
    ReleaseWordGranted s t
  reportWriter : s.port.order = [] ∨ s.memPort.previous = .passThrough → ¬ReleaseWordWaits s →
    ∀ c, s.report.claim = some c →
      t = { s with
        memPort := ⟨some ⟨.reportWriter, c.addr, .write c.data 15, true⟩, .internal⟩ }
  rigLoader : s.port.order = [] ∨ s.memPort.previous = .passThrough → ¬ReleaseWordWaits s →
    s.report.claim = none → ∀ n, s.loader.phase = .reading n →
      t = { s with
        memPort := ⟨some ⟨.rigLoader, BitVec.ofNat 22 (0x3FF000 + n), .read, true⟩, .internal⟩ }

/-! ### Fault records, part-owned words and snapshots (R169, R170, R171, R173) -/

/-- The notices in the order of their codes. -/
def noticesInOrder : List NoticeCode :=
  [.goalLimit, .goalFormat, .goalSource, .goalAbsent, .goalNotReady, .goalHalted, .goalHeld,
    .goalNoStatus, .gridEmptyCell, .setpointSource, .statusSource, .statusIncomplete,
    .controlSource, .lockedWrite, .requestOverrun, .reportsDropped]

/-- The class and the code of a fault record (R173). -/
def FaultCode.spelled : FaultCode → Nat × Nat
  | .notice c => (0, 1 + noticesInOrder.idxOf c)
  | .hoist c => (1, 32 + allHoistCauses.idxOf c)
  | .group c => (2, 48 + [GroupCause.spread, .memberFault].idxOf c)
  | .halt c => (3, 56 + [HaltCause.stopOpened, .stopDiscrepancy, .overloadBypass].idxOf c)

/-- Word 0 to 3 of a fault record with its sequence number. -/
structure RecordWords (r : FaultRecord) (sequence : Nat) (w : Nat → Word) : Prop where
  sequence : sequence < 4294967296 → (w 0).toNat = sequence
  code : r.subject.getD 255 < 256 →
    (w 1).toNat = r.code.spelled.2 + 256 * r.code.spelled.1 + 65536 * r.subject.getD 255
  valueA : w 2 = r.valueA
  valueB : w 3 = r.valueB

/-- The next word of a record whose write has begun is claimed: words 1, 2, 3 and then 0, at the
ring base plus 4 × write index plus the word (R169). -/
def RecordWordClaimed (r : FaultRecord) (x : RecordWrite) (s t : State) : Prop :=
  let n := if x.written < 3 then x.written + 1 else 0
  ∃ w, RecordWords r x.sequence w ∧
    t = { s with report := { s.report with
      recordWrite := t.report.recordWrite
      nextSequence := t.report.nextSequence
      claim := some ⟨.faultRecord, BitVec.ofNat 22 (x.ring.base + 4 * x.index + n), w n⟩ } } ∧
    t.report.recordWrite = some x

/-- Word 0 to 63 of the statistics block (R173). -/
structure SnapshotWords (v : SnapshotValues) (w : Nat → Word) : Prop where
  frameCount : w 0 = v.frameCount
  batchNumber : (w 1).toNat = v.batchNumber.toNat
  counters : ∀ k : Fin 32, w (2 + k.val) = v.counters[k]
  zero : ∀ n, 34 ≤ n → w n = 0

/-- The next word of a snapshot is claimed: words 1 to 63 and then 0, at the statistics base
(R171). -/
def SnapshotWordClaimed (v : SnapshotValues) (written : Nat) (s t : State) : Prop :=
  let n := if written < 63 then written + 1 else 0
  ∃ w, SnapshotWords v w ∧
    t = { s with report := { s.report with
      snapshot := .writing v written
      claim := some ⟨.snapshot, BitVec.ofNat 22 (s.regionBase .statistics + n), w n⟩ } }

/-- Whether the request in hand waits for the write of a part-owned word (R166). -/
def RequestState.waitsFor (i : Fin 16) : RequestState → Bool
  | .closing _ awaited => awaited[i]
  | .idle => false
  | .inHand _ => false
  | .answered _ => false

/-- A dirty part-owned word is claimed at its latest value, and leaves the dirty set (R170). -/
def MirrorWordClaimed (i : Fin 16) (s t : State) : Prop :=
  t = { s with report := { s.report with
    dirty := s.report.dirty.set i.val false i.isLt
    claim := some ⟨.mirror i (s.requests.state.waitsFor i), BitVec.ofNat 22 (0x3FFF10 + i.val),
      s.mirror i⟩ } }

/-- The choice of the Report Writer's next word, with no word claimed and none in flight (R169). -/
def ReportWordChosen (s t : State) : Prop :=
  match s.report.queue, s.report.recordWrite, s.report.ring with
  | r :: _, some x, _ => RecordWordClaimed r x s t ∧ t.report.nextSequence = s.report.nextSequence
  | r :: _, none, some p =>
    RecordWordClaimed r ⟨s.report.nextSequence, p, s.report.writeIndex, 0⟩ s t ∧
      t.report.nextSequence =
        if s.report.nextSequence < 4294967295 then s.report.nextSequence + 1 else 1
  | r :: _, none, none => NoRecord s t
  | [], _, _ => NoRecord s t
where
  /-- No fault record to write: the lowest dirty part-owned word, then the snapshot. -/
  NoRecord (s t : State) : Prop :=
    (∀ i : Fin 16, s.report.dirty[i] = true → (∀ j : Fin 16, j < i → s.report.dirty[j] = false) →
      MirrorWordClaimed i s t) ∧
    ((∀ i : Fin 16, s.report.dirty[i] = false) →
      match s.report.snapshot with
      | .notTaken => t = s
      | .owed v => SnapshotWordClaimed v 0 s t
      | .writing v written => SnapshotWordClaimed v written s t)

/-- The values behind the part-owned words (R173, "Control block"). -/
structure PartOwnedWords (s : State) : Prop where
  result : (s.mirror 0).toNat = [ResultCode.notAnswered, .done, .unknownRequest, .badArgument,
    .refusedMode, .refusedLock, .refusedMoving, .refusedHalt, .refusedFault, .keyMismatch,
    .loadFailed].idxOf s.requests.result
  detail : s.mirror 1 = s.requests.detail
  state : s.mirror 2 = if s.requests.state = .idle then 0 else 1
  gate : (s.mirror 3).toNat =
    [GateMode.unconfigured, .loading, .guard, .bypass].idxOf s.loader.gate
  lock : (s.mirror 4).toNat =
    [LockState.noPassword, .closed, .opened, .permanent].idxOf s.lock.state
  halt : ∀ n : Nat, (s.mirror 5).getLsbD n =
    if n = 0 then s.halt.latched
    else if n = 1 then s.halt.causes.reset
    else if n = 2 then s.halt.causes.stopOpened
    else if n = 3 then s.halt.causes.stopDiscrepancy
    else if n = 4 then s.halt.causes.overloadBypass
    else if n = 8 then decide (s.halt.channelA = .closed)
    else if n = 9 then decide (s.halt.channelB = .closed)
    else false
  batchNumber : (s.mirror 6).toNat = s.pacer.batchNumber.toNat
  frameCount : s.mirror 7 = s.report.frameCount
  writeIndex : s.report.writeIndex < 4294967296 → (s.mirror 8).toNat = s.report.writeIndex
  sequence : s.report.lastSequence < 4294967296 → (s.mirror 9).toNat = s.report.lastSequence
  loadResult : (s.mirror 10).toNat = match s.loader.result with
    | .notRun => 0
    | .inProgress => 1
    | .passed => 2
    | .failed step => 17 + allSteps.idxOf step
  loadDetail : match s.loader.detail with
    | none => s.mirror 11 = 0
    | some d => d.entry < 512 → (s.mirror 11).toNat = d.entry +
      65536 * (1 + [BlockSection.header, .queues, .regions, .grid, .password, .groups,
        .hoists].idxOf d.part)
  trim : s.pacer.trim < 4294967296 → (s.mirror 12).toNat = s.pacer.trim
  goalMode : (s.mirror 13).toNat = [GoalMode.cued, .direct].idxOf s.goals.mode
  staging : s.goals.staging.length < 4294967296 → (s.mirror 14).toNat = s.goals.staging.length
  linked : s.linkedMovers.length < 4294967296 → (s.mirror 15).toNat = s.linkedMovers.length

/-- The dirty set at the end of an event: every word it made dirty by hand or by a change of its
value, but the word claimed at the event itself (R170). -/
def DirtyAfter (s m t : State) : Prop :=
  ∀ i : Fin 16, t.report.dirty[i] =
    ((m.report.dirty[i] || decide (s.mirror i ≠ m.mirror i)) &&
      !(m.report.claim.isNone && t.report.claim.any fun c => match c.word with
        | .mirror j _ => j = i
        | .faultRecord => false
        | .snapshot => false))

end Sys2Proof.Machine
end

