-- ==== Sys2Proof/Certificates/Slice0/Obligations.lean ====
section
/-! DEFINITION. The statements for the provers. -/

open Sys2Proof Sys2Proof.Machine

/-! ### The queue of commands and reset -/

/-- A step takes the command at the front of the queue and carries it out on the queue's rest; on an
empty queue the block idles, which is the model's choice (log entries 20 and 21). -/
def Obligations.StepRunsTheFrontCommand : Prop :=
  (∀ c rest s, s.pending = c :: rest → step s = exec c { s with pending := rest }) ∧
    ∀ s, s.pending = [] → step s = .next s

/-- What the rules give the part after RESET: chapter 1 R4, R20, R21; 2 R28; 4 R66; 7 R111, R124;
8 R131; 9 R147, R155, R156; 10 R159; 11 R165, R168. -/
def Obligations.ResetGivesTheStatedValues : Prop :=
  let s := State.reset
  (∀ m, s.port.places.get m = .empty ∧ s.lines.wait.get m = false) ∧
    s.memPort.previous = .internal ∧ s.regions = [] ∧
    s.port.requestCode = 0 ∧ (∀ n : Fin 4, s.port.arguments[n] = 0 ∧ s.lock.keys[n] = 0) ∧
    (∀ slot, s.statusCopy slot = ⟨Vector.replicate 4 0, Vector.replicate 3 false⟩) ∧
    s.loader.gate = .unconfigured ∧ s.loader.phase = .idle ∧ s.loader.candidate = [] ∧
    s.loader.result = .notRun ∧ s.loader.detail = none ∧ s.loader.failed = false ∧
    s.loader.previousRing = none ∧
    (∀ slot, s.hoist slot = none) ∧ (∀ g, s.group g = none) ∧
    s.goals = ⟨.cued, none, []⟩ ∧ s.grid = none ∧ s.statusTimeout = none ∧
    (∀ q, s.queue q = ⟨none, 0, false, [], none⟩) ∧
    s.pacer.nextStartA = 0 ∧ s.pacer.nextStartB = 0 ∧ s.pacer.budget = none ∧
    s.pacer.reversalDwell = none ∧ s.pacer.trim = 8 ∧ s.pacer.batchNumber = 0 ∧
    s.pacer.pendingFrame = false ∧ s.pacer.frozen = false ∧ s.linkedMoverCount = 0 ∧
    s.writer = ⟨.idle, none, none, []⟩ ∧
    s.halt.latched = true ∧ s.halt.causes = ⟨true, false, false, false⟩ ∧
    s.halt.discrepancy = 0 ∧ s.halt.cycle = .notRequired ∧
    s.lines.enable = false ∧ s.lines.fault = false ∧
    s.lock.state = .noPassword ∧ s.lock.password = none ∧
    s.requests.state = .idle ∧ s.requests.result = .notAnswered ∧
    s.report.queue = [] ∧ s.report.dropped = 0 ∧ s.report.ring = none ∧
    s.report.writeIndex = 0 ∧ s.report.nextSequence = 1 ∧ s.report.lastSequence = 0 ∧
    (∀ i : Fin 16, s.report.dirty[i] = true) ∧ (∀ k : Fin 32, s.report.counters[k] = 0) ∧
    s.report.cadence = none ∧ s.report.snapshot = .notTaken ∧ s.report.frameCount = 0

/-- The invariants that the statements below say every step keeps hold right after RESET. -/
def Obligations.InvariantsHoldAtReset : Prop :=
  let s := State.reset
  Memory.wf s.mem ∧ RestsBetweenEvents s ∧ CommandsFollowPower s ∧ LinesShow s ∧ QueueBounded s ∧
    LockFollowsGate s ∧ RatesInRange s ∧ StagingSound s ∧ ReadsWhole s ∧ BrakedUnlessEnabled s ∧
    MoversOnce s ∧ ResumePointsSound s ∧ StillWhenStopped s ∧ TrussesHeld s ∧
    HaltCausesSound s ∧ ChannelsFollowLines s ∧ OwedSlotsOnce s ∧ HeldSetpointRead s ∧
    AccessesWithTheirMasters s ∧ RegionsApart s

/-! ### Accesses -/

/-- The control block (R13, R14) and the configuration block (R15, R16), in every gate mode and lock
state. -/
def Obligations.AnchorRegionsClassified : Prop :=
  ∀ s a,
    (∀ o, o < 64 → a.addr.toNat = 0x3FFF00 + o →
      (a.op = .read → classify s a = if 8 ≤ o ∧ o ≤ 11 then .zero else .pass) ∧
      (a.op ≠ .read → a.mid ≠ .processor →
        classify s a = .drop (some (.controlSource, none))) ∧
      (a.op ≠ .read → a.mid = .processor →
        (o = 0 → classify s a = .capture .requestCode) ∧
        (∀ n : Fin 4, o = 1 + n.val → classify s a = .capture (.argument n)) ∧
        (∀ n : Fin 4, o = 8 + n.val → classify s a = .capture (.keyWord n)) ∧
        (16 ≤ o ∧ o ≤ 31 → classify s a = .drop none) ∧
        ((5 ≤ o ∧ o ≤ 7) ∨ (12 ≤ o ∧ o ≤ 15) ∨ 32 ≤ o → classify s a = .pass))) ∧
    ∀ o, o < 1408 → a.addr.toNat = 0x3FF000 + o →
      let guarded := s.lock.state = .closed ∨ s.lock.state = .permanent
      (a.op ≠ .read → a.mid ≠ .processor → classify s a = .drop none) ∧
      (a.op ≠ .read → a.mid = .processor →
        (s.loader.gate = .loading → classify s a = .hold) ∧
        (s.loader.gate ≠ .loading → ¬guarded → classify s a = .pass) ∧
        (s.loader.gate ≠ .loading → guarded →
          classify s a = .drop (some (.lockedWrite, none)))) ∧
      (a.op = .read →
        (¬guarded → classify s a = .pass) ∧
        (guarded → 0x74 ≤ o ∧ o ≤ 0x77 → classify s a = .zero) ∧
        (guarded → ¬(0x74 ≤ o ∧ o ≤ 0x77) →
          classify s a = if a.mid = .processor ∨ a.mid = .driveLink then .pass else .zero))

/-- The setpoint area in GUARD (R7) and in BYPASS (R8), with the hold of R9. -/
def Obligations.SetpointAreaClassified : Prop :=
  ∀ s a o, s.locate a.addr = .region .setpoint o → o < 512 →
    (a.op = .read →
      classify s a = if a.mid = .driveLink ∧ s.writer.state = .writing then .hold else .pass) ∧
    (a.op ≠ .read → a.mid ≠ .processor →
      classify s a = .drop (some (.setpointSource, some (o / 4)))) ∧
    (∀ data enables, a.op = .write data enables → a.mid = .processor →
      (s.loader.gate = .bypass → classify s a = .pass) ∧
      (s.loader.gate = .guard → o % 4 = 0 → enables = 15 →
        ∃ slot, classify s a = .intercept slot ∧ slot.val = o / 4) ∧
      (s.loader.gate = .guard → ¬(o % 4 = 0 ∧ enables = 15) →
        classify s a = .drop (some (.goalFormat, some (o / 4)))))

/-- Where an address falls: the word at an offset below the length of a configured region, and
plain memory, the rest of the top 4 Ki words among it, in every gate mode (R5). And the classes of
the other configured regions: the status area (R10), the grid window (R11), the fault ring and the
statistics block (R12), user regions (R17), and of plain memory (R5). -/
def Obligations.ConfiguredRegionsClassified : Prop :=
  ∀ s a,
    (∀ o, s.locate a.addr = .region .status o → o < 512 →
      (a.op = .read → classify s a = .pass) ∧
      (a.op ≠ .read → a.mid ≠ .driveLink →
        classify s a = .drop (some (.statusSource, some (o / 4)))) ∧
      (a.op ≠ .read → a.mid = .driveLink →
        ∃ slot word, classify s a = .capture (.status slot word) ∧ slot.val = o / 4 ∧
          word.val = o % 4)) ∧
    (∀ o, s.locate a.addr = .region .grid o →
      (a.op = .read → classify s a = .pass) ∧
      (a.op ≠ .read → a.mid ≠ .processor → classify s a = .drop (some (.goalSource, none))) ∧
      (∀ data enables, a.op = .write data enables → a.mid = .processor →
        (s.loader.gate = .bypass → classify s a = .pass) ∧
        (s.loader.gate = .guard → enables = 15 → classify s a = .capture (.grid o)) ∧
        (s.loader.gate = .guard → enables ≠ 15 →
          classify s a = .drop (some (.goalFormat, none))))) ∧
    (∀ o, s.locate a.addr = .region .ring o ∨ s.locate a.addr = .region .statistics o →
      (a.op = .read ∨ a.mid = .processor → classify s a = .pass) ∧
      (a.op ≠ .read → a.mid ≠ .processor → classify s a = .drop none)) ∧
    (∀ o lockable fenced, s.locate a.addr = .region (.user lockable fenced) o →
      let guarded := s.lock.state = .closed ∨ s.lock.state = .permanent
      let outsider := a.mid = .auxiliary ∨ a.mid = .service
      (a.op = .read → fenced = true → outsider → classify s a = .zero) ∧
      (a.op = .read → ¬(fenced = true ∧ outsider) → classify s a = .pass) ∧
      (a.op ≠ .read → lockable = true → guarded →
        classify s a = .drop (some (.lockedWrite, none))) ∧
      (a.op ≠ .read → ¬(lockable = true ∧ guarded) → fenced = true → outsider →
        classify s a = .drop none) ∧
      (a.op ≠ .read → ¬(lockable = true ∧ guarded) → ¬(fenced = true ∧ outsider) →
        classify s a = .pass)) ∧
    (s.locate a.addr = .plain → classify s a = .pass) ∧
    (RegionsApart s →
      (∀ r ∈ s.regions, ∀ o, o < r.length → a.addr.toNat = r.base + o →
        s.locate a.addr = .region r.kind o) ∧
      (a.addr.toNat < 0x3FF000 →
        (∀ r ∈ s.regions, ¬(r.base ≤ a.addr.toNat ∧ a.addr.toNat < r.base + r.length)) →
        s.locate a.addr = .plain) ∧
      ((0x3FF580 ≤ a.addr.toNat ∧ a.addr.toNat ≤ 0x3FFEFF) ∨ 0x3FFF40 ≤ a.addr.toNat →
        s.locate a.addr = .plain ∧ classify s a = .pass))

/-- ACCESS_ARRIVAL: a taken access is carried out by its class, and an argument write, or a write to
the request code word without all four byte enables, is merged into its captured copy alone. -/
def Obligations.AccessCarriedOutByItsClass : Prop :=
  ∀ s a, RestsBetweenEvents s → s.accepts a.mid = true →
    ∃ t, exec (.accessArrival a) s = .next t ∧ CarriedOut a (classify s a) s t ∧
      ∀ data enables, a.op = .write data enables →
        (∀ n : Fin 4, classify s a = .capture (.argument n) →
          WaitsForPort a s t ∧ t.port.requestCode = s.port.requestCode ∧
            (∀ k : Fin 4,
              if k = n then MergedWord s.port.arguments[k] data enables t.port.arguments[k]
              else t.port.arguments[k] = s.port.arguments[k]) ∧
            KeepsAllBut [.captured] s t) ∧
        (classify s a = .capture .requestCode → enables ≠ 15 →
          WaitsForPort a s t ∧ MergedWord s.port.requestCode data enables t.port.requestCode ∧
            t.port.arguments = s.port.arguments ∧ KeepsAllBut [.captured] s t)

/-- Every command that is an access: one that meets an asserted RESET, or a place that is not EMPTY,
stays on its master's bus (R1, R4; what stands on the bus already is log entry 11's). -/
def Obligations.AccessNotTakenStaysOnTheBus : Prop :=
  ∀ c a s, accessOf c = some a → RestsBetweenEvents s →
    (s.lines.reset = true ∨ s.port.places.get a.mid ≠ .empty) →
    ∃ t, exec c s = .next t ∧ t.port.bus = s.port.bus.set a.mid (s.port.bus.get a.mid ++ [a]) ∧
      KeepsAllBut [.bus] s t

/-! ### Goals, status and keys -/

/-- GOAL_WRITE: a whole processor write to word 0 of a setpoint record in GUARD is decided as a goal
and completes at once. -/
def Obligations.GoalWriteDecided : Prop :=
  ∀ s addr goal o, RestsBetweenEvents s → StagingSound s → s.accepts .processor = true →
    s.loader.gate = .guard → s.locate addr = .region .setpoint o → o < 512 → o % 4 = 0 →
    ∃ t slot, exec (.goalWrite addr goal) s = .next t ∧ slot.val = o / 4 ∧
      t.port.places.processor = .empty ∧ GoalDecided slot goal addr s t

/-- GRID_WRITE: a whole processor write in the grid window in GUARD is mapped and decided, and goes
on to memory. -/
def Obligations.GridWriteDecided : Prop :=
  ∀ s addr goal o g, RestsBetweenEvents s → StagingSound s → s.accepts .processor = true →
    s.loader.gate = .guard → s.locate addr = .region .grid o → s.grid = some g →
    ∃ t, exec (.gridWrite addr goal) s = .next t ∧
      t.port.places.processor = .waiting ⟨.processor, addr, .write goal allBytes⟩ ∧
      GridDecided g o goal addr s t

/-- STATUS_WORD_WRITE: a drive link engine write to status word 0, 1 or 2 is merged and marked.
KEY_WORD_WRITE: the enabled bytes of a processor write to key word n are merged into the captured
key word n. -/
def Obligations.CapturedWordsMerged : Prop :=
  (∀ s addr data enables o, RestsBetweenEvents s → s.accepts .driveLink = true →
    s.locate addr = .region .status o → o < 512 → o % 4 < 3 →
    ∃ t slot word, exec (.statusWordWrite addr data enables) s = .next t ∧ slot.val = o / 4 ∧
      word.val = o % 4 ∧
      t.port.places.driveLink = .waiting ⟨.driveLink, addr, .write data enables⟩ ∧
      StatusMerged slot word data enables s t) ∧
  ∀ s (n : Fin 4) data enables, RestsBetweenEvents s → s.accepts .processor = true →
    ∃ t, exec (.keyWordWrite n data enables) s = .next t ∧
      t.port.places.processor = .waiting ⟨.processor, keyWordAddr n, .write data enables⟩ ∧
      t.lock.state = s.lock.state ∧ t.lock.password = s.lock.password ∧
      (∀ k : Fin 4,
        if k = n then MergedWord s.lock.keys[k] data enables t.lock.keys[k]
        else t.lock.keys[k] = s.lock.keys[k]) ∧
      KeepsAllBut [.lock] s t

/-- STATUS_ARRIVAL: a drive link engine write to status word 3 completes its slot's record, which is
ignored, refused, found stale, or taken with all its effects. A negative measured position past a
negative bound is LIMIT_OVERRUN, the model's choice between R136's sentence and its table (log entry
29). The model's too are the order HOIST, GROUP, HALT of the records of an overload in BYPASS (log
entry 17), the retry hold that a further fault sets again in BYPASS as in GUARD (log entry 28), and
the word of a value that its word cannot hold (log entry 18). -/
def Obligations.StatusArrivalDecided : Prop :=
  ∀ s addr data enables o, RestsBetweenEvents s → CommandsFollowPower s → TrussesHeld s →
    s.accepts .driveLink = true →
    s.locate addr = .region .status o → o < 512 → o % 4 = 3 →
    ∃ t slot, exec (.statusArrival addr data enables) s = .next t ∧ slot.val = o / 4 ∧
      t.port.places.driveLink = .waiting ⟨.driveLink, addr, .write data enables⟩ ∧
      CopyCompleted slot (arrivalWords slot data enables s) s t ∧
      ArrivalDecided slot (arrivalWords slot data enables s) s t

/-! ### Requests of the Rig Loader and the Rig Lock -/

/-- LOAD, by the gate mode, the lock state and the rig's motion. LOADING, where the rule says that
no LOAD can come, is left to a hypothesis. -/
def Obligations.LoadTakenOrRefused : Prop :=
  ∀ s, s.requestReady → HeldSetpointRead s → s.loader.gate ≠ .loading →
    ∃ t, exec .load s = .next t ∧
      let guarded := s.lock.state = .closed ∨ s.lock.state = .permanent
      (s.loader.gate = .unconfigured → LoadBegun s t) ∧
      (s.loader.gate = .guard → guarded → Refused 1 .refusedLock 0 s t) ∧
      (s.loader.gate = .guard → ¬guarded → RigMoves s → Refused 1 .refusedMoving 0 s t) ∧
      (s.loader.gate = .guard → ¬guarded → ¬RigMoves s → LoadBegun s t) ∧
      (s.loader.gate = .bypass → Refused 1 .refusedMode 0 s t)

/-- RESTART hands DONE, tears the configuration down and leaves the gate UNCONFIGURED. That
LOADING, where the rule says that no RESTART can come, is refused like UNCONFIGURED is the model's
choice (log entry 19). -/
def Obligations.RestartTearsDown : Prop :=
  ∀ s, s.requestReady → HeldSetpointRead s →
    ∃ t, exec .restart s = .next t ∧
      let configured := s.loader.gate = .guard ∨ s.loader.gate = .bypass
      let guarded := s.lock.state = .closed ∨ s.lock.state = .permanent
      (¬configured → Refused 2 .refusedMode 0 s t) ∧
      (configured → guarded → Refused 2 .refusedLock 0 s t) ∧
      (configured → ¬guarded → RigRestarted s t)

/-- SET_MODE with argument BYPASS, with argument GUARD, and with an argument that names no gate
mode. That a SYNC batch which starts at the return to GUARD clears sync due at that event is the
model's reading (log entry 33). -/
def Obligations.SetModeChangesTheGateMode : Prop :=
  (∀ s, s.requestReady → s.port.arguments[0] ≠ 0 →
    ∃ t, exec .setModeBypass s = .next t ∧
      let guarded := s.lock.state = .closed ∨ s.lock.state = .permanent
      (s.port.arguments[0] ≠ 1 → Refused 3 .badArgument 0 s t) ∧
      (s.port.arguments[0] = 1 → s.loader.gate ≠ .guard → Refused 3 .refusedMode 0 s t) ∧
      (s.port.arguments[0] = 1 → s.loader.gate = .guard → guarded →
        Refused 3 .refusedLock 0 s t) ∧
      (s.port.arguments[0] = 1 → s.loader.gate = .guard → ¬guarded → BypassEntered s t)) ∧
  ∀ s, s.requestReady → s.port.arguments[0] = 0 →
    ∃ t, exec .setModeGuard s = .next t ∧
      (s.loader.gate ≠ .bypass → Refused 3 .refusedMode 0 s t) ∧
      (s.loader.gate = .bypass → GuardReturned s t)

/-- UNLOCK, by the lock state and the key; an UNLOCK that meets a PENDING request leaves the lock
and the captured key words as they stood. -/
def Obligations.UnlockComparesTheKey : Prop :=
  ∀ s,
    (s.requestReady → ∃ t, exec .unlock s = .next t ∧
      (s.lock.state = .noPassword → UnlockAnswered .refusedLock .noPassword s t) ∧
      (s.lock.state = .permanent → UnlockAnswered .refusedLock .permanent s t) ∧
      (s.lock.state = .closed → KeyMatches s → UnlockAnswered .done .opened s t) ∧
      (s.lock.state = .closed → ¬KeyMatches s → UnlockAnswered .keyMismatch .closed s t) ∧
      (s.lock.state = .opened → KeyMatches s → UnlockAnswered .done .opened s t) ∧
      (s.lock.state = .opened → ¬KeyMatches s → UnlockAnswered .keyMismatch .opened s t)) ∧
    (RestsBetweenEvents s → s.accepts .processor = true → s.requests.state ≠ .idle →
      ∃ t, exec .unlock s = .next t ∧ t.lock = s.lock)

/-- LOCK, by the lock state. -/
def Obligations.LockClosesAnOpenLock : Prop :=
  ∀ s, s.requestReady →
    ∃ t, exec .lock s = .next t ∧
      (s.lock.state = .opened →
        Answered 5 .done 0 s t ∧ t.lock = ⟨.closed, s.lock.password, s.lock.keys⟩ ∧
          KeepsAllBut [.lock, .requests, .captured] s t) ∧
      (s.lock.state = .closed → Refused 5 .done 0 s t) ∧
      (s.lock.state = .noPassword → Refused 5 .refusedLock 0 s t) ∧
      (s.lock.state = .permanent → Refused 5 .refusedLock 0 s t)

/-! ### Requests of motion -/

/-- GO promotes the staging entries that pass their tests, in list order, and empties the list. -/
def Obligations.GoPromotesTheStagedScene : Prop :=
  ∀ s, s.requestReady → StagingSound s →
    ∃ t, exec .go s = .next t ∧
      (s.loader.gate ≠ .guard → Refused 6 .refusedMode 0 s t) ∧
      (s.loader.gate = .guard → s.halt.latched = true → Refused 6 .refusedHalt 0 s t) ∧
      (s.loader.gate = .guard → s.halt.latched = false → ScenePromoted s t)

/-- CLEAR_STAGE empties the staging list, and SET_GOAL_MODE sets the goal mode. LOADING, where
neither can come, is left to a hypothesis. -/
def Obligations.StagingRequestsAnswered : Prop :=
  ∀ s, s.requestReady → s.loader.gate ≠ .loading →
    (∃ t, exec .clearStage s = .next t ∧
      Answered 7 .done (BitVec.ofNat 32 s.goals.staging.length) s t ∧
      t.goals = { s.goals with staging := [] } ∧
      KeepsAllBut [.goals, .requests, .captured] s t) ∧
    ∃ t, exec .setGoalMode s = .next t ∧
      let named := s.port.arguments[0] = 0 ∨ s.port.arguments[0] = 1
      (¬named → Refused 9 .badArgument 0 s t) ∧
      (named → s.loader.gate = .unconfigured → Refused 9 .refusedMode 0 s t) ∧
      (named → s.loader.gate ≠ .unconfigured →
        Answered 9 .done (BitVec.ofNat 32 s.goals.staging.length) s t ∧
          t.goals = { s.goals with
            mode := if s.port.arguments[0] = 0 then .cued else .direct } ∧
          KeepsAllBut [.goals, .requests, .captured] s t)

/-- WITHDRAW, in the order of its tests. -/
def Obligations.WithdrawRemovesGoals : Prop :=
  ∀ s, s.requestReady →
    ∃ t, exec .withdraw s = .next t ∧
      let kind := s.port.arguments[0]
      let named := kind = 1 ∨ kind = 2 ∨ kind = 3
      (¬named → Refused 8 .badArgument 0 s t) ∧
      (named → s.loader.gate ≠ .guard → Refused 8 .refusedMode 0 s t) ∧
      (named → s.loader.gate = .guard → s.subjectOf kind s.port.arguments[1] = none →
        Refused 8 .badArgument 0 s t) ∧
      ∀ x, named → s.loader.gate = .guard → s.subjectOf kind s.port.arguments[1] = some x →
        SubjectWithdrawn x s t

/-- POWER, in the order of its tests; a subject names each hoist once, as a sound group does. -/
def Obligations.PowerAppliesTheLevel : Prop :=
  ∀ s, s.requestReady → TrussesHeld s →
    ∃ t, exec .power s = .next t ∧
      let kind := s.port.arguments[0]
      let subject := s.subjectOf kind s.port.arguments[1]
      let level := levelOf s.port.arguments[2]
      let named := (kind = 1 ∨ kind = 2 ∨ kind = 3) ∧ level ≠ none
      (¬named → Refused 10 .badArgument 0 s t) ∧
      (named → s.loader.gate ≠ .guard → Refused 10 .refusedMode 0 s t) ∧
      (named → s.loader.gate = .guard → subject = none → Refused 10 .badArgument 0 s t) ∧
      ∀ x l, named → s.loader.gate = .guard → subject = some x → level = some l →
        if l = .run ∧ s.halt.latched = true then Refused 10 .refusedHalt 0 s t
        else LevelApplied l (s.subjectSlots x) s t

/-! ### Clearing and resuming -/

/-- CLEAR_FAULT for a hoist, and for a subject kind that names neither HOIST nor GROUP: that this
row answers such a kind is the model's choice (log entry 10). That a negative position past a
negative bound stays faulted is the model's too (log entry 29). -/
def Obligations.ClearFaultHoistClears : Prop :=
  ∀ s, s.requestReady → s.port.arguments[0] ≠ 2 →
    ∃ t, exec .clearFaultHoist s = .next t ∧
      let configured := s.loader.gate = .guard ∨ s.loader.gate = .bypass
      (s.port.arguments[0] ≠ 1 → Refused 11 .badArgument 0 s t) ∧
      (s.port.arguments[0] = 1 → ¬configured → Refused 11 .refusedMode 0 s t) ∧
      (s.port.arguments[0] = 1 → configured → s.subjectOf 1 s.port.arguments[1] = none →
        Refused 11 .badArgument 0 s t) ∧
      ∀ slot, s.port.arguments[0] = 1 → configured →
        s.subjectOf 1 s.port.arguments[1] = some (.hoist slot) → HoistCleared slot s t

/-- CLEAR_FAULT for a group. -/
def Obligations.ClearFaultGroupReturnsToIdle : Prop :=
  ∀ s, s.requestReady → s.port.arguments[0] = 2 →
    ∃ t, exec .clearFaultGroup s = .next t ∧
      let configured := s.loader.gate = .guard ∨ s.loader.gate = .bypass
      (¬configured → Refused 11 .refusedMode 0 s t) ∧
      (configured → s.subjectOf 2 s.port.arguments[1] = none → Refused 11 .badArgument 0 s t) ∧
      ∀ g r, configured → s.subjectOf 2 s.port.arguments[1] = some (.group g) →
        s.group g = some r →
        (r.state ≠ .held → Refused 11 .done 0 s t) ∧
        (∀ slot, r.state = .held → r.members.find? s.faulted = some slot →
          Refused 11 .refusedFault (BitVec.ofNat 32 slot.val) s t) ∧
        (r.state = .held → r.members.find? s.faulted = none →
          Answered 11 .done (BitVec.ofNat 32 (r.causes.spread.toNat + r.causes.memberFault.toNat))
              s t ∧
            (∀ k, t.group k = if k = g then
                some { r with causes := .empty, retry := 0, state := .idle } else s.group k) ∧
            KeepsAllBut [.groups, .requests, .captured] s t)

/-- RESUME, in the order of its tests. That a SYNC batch which starts at this event clears sync due
at it is the model's reading (log entry 33). -/
def Obligations.ResumeClearsTheHalt : Prop :=
  ∀ s, s.requestReady → StillWhenStopped s →
    ∃ t, exec .resume s = .next t ∧
      let configured := s.loader.gate = .guard ∨ s.loader.gate = .bypass
      let closed := s.halt.channelA = .closed ∧ s.halt.channelB = .closed
      let heavy := allSlots.find? fun slot =>
        s.halt.causes.overloadBypass && (s.hoist slot).any fun h => h.causes.overload
      (¬configured → Refused 12 .refusedMode 0 s t) ∧
      (configured → s.halt.latched = false → Refused 12 .done 0 s t) ∧
      (configured → s.halt.latched = true → ¬closed → Refused 12 .refusedHalt 1 s t) ∧
      (configured → s.halt.latched = true → closed → s.halt.cycle ≠ .notRequired →
        Refused 12 .refusedHalt 2 s t) ∧
      (∀ slot, configured → s.halt.latched = true → closed → s.halt.cycle = .notRequired →
        heavy = some slot → Refused 12 .refusedFault (BitVec.ofNat 32 slot.val) s t) ∧
      (configured → s.halt.latched = true → closed → s.halt.cycle = .notRequired → heavy = none →
        RigResumed s t)

/-! ### Requests of the Pacer, the Report Writer and the Request Handler -/

/-- SET_RATE replaces a queue's increment, and SET_TRIM the speed trim; each answers the previous
value. -/
def Obligations.SetRateAndSetTrimReplace : Prop :=
  ∀ s, s.requestReady →
    let configured := s.loader.gate = .guard ∨ s.loader.gate = .bypass
    (∃ t, exec .setRate s = .next t ∧
      let queue := s.port.arguments[0].toNat
      let increment := s.port.arguments[1].toNat
      let named := queue < 8 ∧ 1 ≤ increment ∧ increment ≤ 256
      (¬named → Refused 13 .badArgument 0 s t) ∧
      (named → ¬configured → Refused 13 .refusedMode 0 s t) ∧
      (named → configured → ∀ q : QueueNo, q.val = queue →
        Answered 13 .done (BitVec.ofNat 32 ((s.queue q).increment.getD 0)) s t ∧
          (∀ k, t.queue k = if k = q then { s.queue k with increment := some increment }
            else s.queue k) ∧
          t.pacer.batchNumber = s.pacer.batchNumber ∧ PacerSettingsStand s t ∧
          KeepsAllBut [.pacer, .requests, .captured] s t)) ∧
    ∃ t, exec .setTrim s = .next t ∧
      let trim := s.port.arguments[0].toNat
      let named := 1 ≤ trim ∧ trim ≤ 8
      (¬named → Refused 14 .badArgument 0 s t) ∧
      (named → ¬configured → Refused 14 .refusedMode 0 s t) ∧
      (named → configured →
        Answered 14 .done (BitVec.ofNat 32 s.pacer.trim) s t ∧
          t.pacer = { s.pacer with trim := trim } ∧
          KeepsAllBut [.pacer, .requests, .captured] s t)

/-- SNAPSHOT_STATS stays in hand; its snapshot is taken at once, or after the one in hand. -/
def Obligations.SnapshotStatsTaken : Prop :=
  ∀ s, s.requestReady →
    ∃ t, exec .snapshotStats s = .next t ∧
      let configured := s.loader.gate = .guard ∨ s.loader.gate = .bypass
      (¬configured → Refused 15 .refusedMode 0 s t) ∧
      (configured → InHand 15 s t ∧ t.report.cadence = s.report.cadence ∧
        (s.report.snapshot = .notTaken → t.report.statsRequest = .own ∧
          SnapshotTaken s.report.frameCount s t) ∧
        (s.report.snapshot ≠ .notTaken → t.report.statsRequest = .afterCurrent) ∧
        KeepsAllBut [.statistics, .requests, .captured] s t)

/-- A code that names no request is answered at once; a request event that meets a PENDING request
is an overrun, whichever request it is. -/
def Obligations.RequestEventsAnsweredOrOverrun : Prop :=
  (∀ s code, s.requestReady → code.toNat = 0 ∨ 15 < code.toNat →
    ∃ t, exec (.unknownRequest code) s = .next t ∧ Refused code .unknownRequest 0 s t) ∧
  ∀ c s code (r : Request), accessOf c = some (requestAccess code) →
    s.accepts .processor = true →
    (s.requests.state = .inHand r ∨ ∃ awaited, s.requests.state = .closing r awaited) →
    ∃ t, exec c s = .next t ∧ RequestCaptured code s t ∧
      Handed [⟨.notice .requestOverrun, none, code, r.code⟩] s t ∧
      KeepsAllBut [.captured, .faultQueue] s t

/-! ### Completions -/

/-- Every event with RESET low ends with the Report Writer's claim, the arbiter's grant of a free
port, and the lines; a port that carries an operation grants nothing. A taken access of class PASS
joins the end of the order of grants, and accesses that RESET_RELEASED takes at the same moment
enter it lower MID first (R20). That claim and grant are made at the end of the event that makes
them possible is the model's reading (log entry 8); that a master's accesses stay on the bus through
RESET, and are taken lower MID first at its release, is the model's choice (log entry 11). -/
def Obligations.FreePortGrantedInTurn : Prop :=
  (∀ f s, (f s).lines.reset = false →
    event f s = driveLines (grantPort (claimReport (drawAwaited (markChanges s (f s)))))) ∧
  (∀ s, s.memPort.op ≠ none → grantPort s = s) ∧
  (∀ s, s.memPort.op = none → FreePortGranted s (grantPort s)) ∧
  (∀ s, BaseOfRegion s) ∧
  (∀ s a, RestsBetweenEvents s → s.accepts a.mid = true → classify s a = .pass →
    s.memPort.op ≠ none →
    ∃ t, exec (.accessArrival a) s = .next t ∧ t.port.order = s.port.order ++ [a.mid] ∧
      t.memPort = s.memPort) ∧
  ∀ s, s.lines.reset = true → RestsBetweenEvents s → AccessesWithTheirMasters s →
    s.port.places = .all .empty → s.port.order = [] → s.memPort.op ≠ none → s.regions = [] →
    (∀ m, ∀ a ∈ s.port.bus.get m, a.addr.toNat < 0x3FF000) →
    ∃ t, exec .resetReleased s = .next t ∧
      t.port.order = [Mid.processor, .driveLink, .auxiliary, .service].filter fun m =>
        !(s.port.bus.get m).isEmpty

/-- The Report Writer's choice of its next word, the words of a fault record, of the control block
and of a snapshot, and the dirty set at the end of every event with RESET low (R169 to R171, R173).
That a word becomes dirty exactly where its value after an event differs from its value before it
is the model's reading (log entry 9), and so is the claim at the end of that event (log entry 8). -/
def Obligations.ReportWordsChosenInOrder : Prop :=
  (∀ s, s.report.claim ≠ none ∨ (∃ op, s.memPort.op = some op ∧ op.claimant = .reportWriter) →
    claimReport s = s) ∧
  (∀ s, s.report.claim = none →
    (∀ op, s.memPort.op = some op → op.claimant ≠ .reportWriter) →
    ReportWordChosen s (claimReport s)) ∧
  (∀ s, PartOwnedWords s) ∧
  ∀ f s, (f s).lines.reset = false → DirtyAfter s (f s) (event f s)

/-- PASS_THROUGH_COMPLETE: the memory takes the write or returns the word, and the place is EMPTY;
an access that stood on the bus is taken as a new arrival. -/
def Obligations.PassThroughCompletes : Prop :=
  ∀ s op m, RestsBetweenEvents s → Memory.wf s.mem → s.memPort.op = some op →
    op.claimant = .passThrough m →
    ∃ t, exec .passThroughComplete s = .next t ∧ MemoryTook op s t ∧
      (op.live = false → KeepsAllBut [.memory] s t) ∧
      (op.live = true → s.port.bus.get m = [] → PassCompleted m op s t) ∧
      ∀ a rest, op.live = true → s.port.bus.get m = a :: rest → a.mid = m →
        classify s a = .pass → WaitsForPort a s t ∧ t.port.bus.get m = rest

/-- RELEASE_WORD_COMPLETE: the record word is in memory, and the batch goes on, another follows it
directly, or the Release Writer becomes IDLE and a pending frame is taken. A next word may be
granted at the same event (log entry 8); a HOLD batch owed since GUARD that starts in BYPASS carries
a sync first made there (log entry 32). -/
def Obligations.ReleaseWordCompletes : Prop :=
  ∀ s op, RestsBetweenEvents s → Memory.wf s.mem → HeldSetpointRead s →
    OwedSlotsOnce s → s.memPort.op = some op → op.claimant = .releaseWriter →
    ∃ t, exec .releaseWordComplete s = .next t ∧ MemoryTook op s t ∧
      (op.live = false → KeepsAllBut [.memory] s t) ∧
      (op.live = true → s.writer.state = .writing → ReleaseWordDone s t)

/-- REPORT_WORD_COMPLETE: the word is in memory, and the record, the request or the snapshot it
belongs to goes on or ends. The next record may begin at the same event (log entry 8); that a word
claimed before a request's result does not serve the request is the model's reading (log entry 25).
-/
def Obligations.ReportWordCompletes : Prop :=
  ∀ s op, RestsBetweenEvents s → Memory.wf s.mem → s.memPort.op = some op →
    op.claimant = .reportWriter →
    ∃ t, exec .reportWordComplete s = .next t ∧ MemoryTook op s t ∧
      (op.live = false → KeepsAllBut [.memory] s t) ∧
      (op.live = true → ReportWordDone s t)

/-- LOAD_WORD_READ: the word joins the candidate and the offset goes on, after the last word to
VALIDATING. -/
def Obligations.LoadWordJoinsTheCandidate : Prop :=
  ∀ s op n, RestsBetweenEvents s → s.memPort.op = some op → op.claimant = .rigLoader →
    op.op = .read → op.live = true → s.loader.phase = .reading n →
    ∃ t, exec .loadWordRead s = .next t ∧
      t.loader = { s.loader with
        candidate := s.loader.candidate ++ [Memory.readWord s.mem op.addr]
        phase := if n < 0x57F then .reading (n + 1) else .validating } ∧
      t.mem = s.mem ∧ KeepsAllBut [.loader] s t

/-- The fields that the Rig Loader reads from the 1,408 words of a block, each from its bits, and
the region map it makes of them. -/
def Obligations.BlockFieldsRead : Prop :=
  ∀ ws : List Word, ws.length = 1408 →
    BlockFields ws (rigBlock ws) ∧ (rigBlock ws).regionMap = mapOfBlock (rigBlock ws)

/-- The sixteen steps of validation: each tests its fields in its order and gives the detail of the
first that offends, and the first step in order that fails is the failure. -/
def Obligations.ValidationStepsTestTheBlock : Prop :=
  ∀ ws : List Word, ws.length = 1408 →
    let b := rigBlock ws
    (∀ step, runStep b step = b.firstOffence step) ∧
      (∀ step d, validate b = some (step, d) ↔
        b.firstOffence step = some d ∧
          ∀ earlier, stepNumber earlier < stepNumber step → b.firstOffence earlier = none) ∧
      (validate b = none ↔ ∀ step, b.firstOffence step = none)

/-- LOAD_VALIDATION: with a step that fails the load fails with its code and detail, and with every
step passed the candidate is installed. -/
def Obligations.LoadValidationEndsTheLoad : Prop :=
  (∀ s step d r, s.lines.reset = false → s.loader.phase = .validating →
    s.requests.state = .inHand r → HeldThroughLoad s →
    validate (rigBlock s.loader.candidate) = some (step, d) →
    ∃ t, exec .loadValidation s = .next t ∧ LoadFails step d r s t) ∧
  ∀ s r, s.lines.reset = false → s.loader.phase = .validating → s.loader.gate = .loading →
    s.requests.state = .inHand r → HeldThroughLoad s →
    validate (rigBlock s.loader.candidate) = none →
    ∃ t, exec .loadValidation s = .next t ∧ LoadPasses (rigBlock s.loader.candidate) r s t

/-! ### FRAME and the Pacer -/

/-- FRAME_ARRIVAL: no block takes it while RESET is asserted. Otherwise its parts are taken in some
order, and in every order of them: the frame count is raised, the two stop channels are compared, a
frame meets a busy Release Writer as R112 lays down, a snapshot falls due as R171 lays down,
outside GUARD nothing else changes, and in GUARD every present hoist's age and every HELD RETRY
group is counted and an IDLE Release Writer with an unfrozen Pacer takes the frame. Every present
hoist is counted on in all its counters where the Pacer takes no frame and no cause and no halt
arises; in the other cases its record also takes those effects, in the order of the parts, and the
last clause gives it by naming `hoistFrame`, `frameRetry` and `takeFrame`, which
HoistCountedAtAFrame and FrameTakenWithinTheBudget state. The free order of the parts is log entry
7; that a counter set at the arrival is not counted at it too is the model's reading of R106 (log
entry 30). -/
def Obligations.FrameArrivalCounted : Prop :=
  (∀ s, RestsBetweenEvents s →
    (s.lines.reset = true → exec .frameArrival s = .next s) ∧
    (s.lines.reset = false →
      (∃ order, order.Perm allFrameParts ∧
        exec .frameArrival s = .next (event (frameIn order) s)) ∧
      ∀ order, order.Perm allFrameParts →
        FrameCounted s (event (frameIn order) s) ∧
          (s.loader.gate = .guard → FrameCountedInGuard s (event (frameIn order) s)))) ∧
  ∀ s u, u.loader.gate = .guard →
    framePart s .hoists u = forEach hoistFrame allSlots u ∧
      framePart s .retries u = forEach (frameRetry s) allGroups u ∧
      (u.pacer.frozen = false → u.writer.state = .idle →
        framePart s .pacer u = takeFrame { u with pacer := { u.pacer with pendingFrame := false } })

/-- What a FRAME arrival counts on one hoist that takes no cause at it: the steps of R51, the idle
park test of R60 among them, and the status age of R138. -/
def Obligations.HoistCountedAtAFrame : Prop :=
  ∀ s slot h, s.hoist slot = some h → s.lastConfirm h = false →
    h.age < s.statusTimeout.getD 0 →
    HoistAlone slot (h.countedOn s slot) s (hoistFrame slot s)

/-- The service of a frame: bank A and then bank B from the whole budget, each bank's queues in
their order, each queue by the walk of its movers from its resume point, mover by mover. -/
def Obligations.BanksServedByWalks : Prop :=
  (∀ queue w, walk queue [] w = w) ∧
  (∀ queue m rest w, WalksByTheTable queue m rest w) ∧
  (∀ bank v i, MoversOnce v.state → ServesAQueue bank v i) ∧
  (∀ bank v, ServesABank bank v) ∧
  ∀ s, serveFrame s = serveBank .b (serveBank .a ⟨s, s.pacer.budget.getD 0, [], false⟩)

/-- A frame taken by the Pacer: the rate counters are raised, the banks are served, and one pacing
batch is made of what the service released and of the hoists due a record; the PACE records never
outnumber the release budget. -/
def Obligations.FrameTakenWithinTheBudget : Prop :=
  ∀ s,
    RatesRaised s (forEach raiseRate allQueues s) ∧
    (let served := serveFrame (forEach raiseRate allQueues s)
     PacingBatchMade served.records served.state (takeFrame s)) ∧
    (∀ q, ((takeFrame s).queue q).rate = (s.queue q).raised ∧
      ((takeFrame s).queue q).increment = (s.queue q).increment) ∧
    (serveFrame s).records.length ≤ s.pacer.budget.getD 0 ∧
    ∀ r ∈ (serveFrame s).records, ∃ h, s.hoist r.slot = some h ∧ h.power = .run ∧
      (r.kind = .pace ∨ r.kind = .sync)

/-- A mover that a service steps: each of its hoists, all in RUN, moves toward its own goal by the
mover's effective step or by its remaining distance, and has one record, in member-list order. -/
def Obligations.PaceRecordsStepTowardTheGoals : Prop :=
  ∀ s queue m slot lead, (s.moverSlots m).head? = some slot → s.hoist slot = some lead →
    (s.moverSlots m).Nodup →
    (∀ k ∈ s.moverSlots m, ∃ h, s.hoist k = some h ∧ h.power = .run) →
    let slots := s.moverSlots m
    let step := effectiveStepOf lead s.pacer.trim ((slots.map s.distanceAt).foldl max 0)
    s.moverStep m = step ∧
      (paceHoists queue step slots s).1 =
        slots.filterMap (fun k => (s.hoist k).map (paceRecord k step)) ∧
      HoistsBecome (fun k h => if k ∈ slots then h.paced step else h) s
        (paceHoists queue step slots s).2 ∧
      Counted (List.replicate slots.length (.paceReleased queue)) s
        (paceHoists queue step slots s).2 ∧
      KeepsAllBut [.hoists, .counters] s (paceHoists queue step slots s).2

/-- The spread check of a group at a taken arrival in GUARD: made for a MOVING group whose members
are all synced, it sets the last spread, and a spread above the tolerance holds the group. -/
def Obligations.SpreadAboveToleranceHoldsTheGroup : Prop :=
  ∀ s g r, s.loader.gate = .guard → TrussesHeld s → s.group g = some r →
    let checked := r.state = .moving ∧ ∀ m ∈ r.members, s.syncedAt m = true
    (¬checked → spreadCheck g s = s) ∧
    ∀ spread, checked → SpreadIs s r.members spread →
      (spread ≤ r.tolerance →
        (∀ k, (spreadCheck g s).group k =
          if k = g then some { r with lastSpread := spread } else s.group k) ∧
        KeepsAllBut [.groups] s (spreadCheck g s)) ∧
      (r.tolerance < spread → SpreadHeld g r spread s (spreadCheck g s))

/-- QUEUE_SERVICE_DUE: the rate counter has reached 256, and the queue is due a service or misses
one. STATISTICS_SNAPSHOT: the frame count stands at a cadence point with no snapshot in hand.
Either has no effect where it has not arisen (log entries 6 and 12). -/
def Obligations.ServicesAndSnapshotsFallDue : Prop :=
  (∀ s q, RestsBetweenEvents s →
    let sum := (s.queue q).rate + (s.queue q).increment.getD 0
    let arisen :=
      s.lines.reset = false ∧ s.loader.gate = .guard ∧ s.pacer.frozen = false ∧ 256 ≤ sum
    (¬arisen → exec (.queueServiceDue q) s = .next s) ∧
    (arisen →
      ∃ t, exec (.queueServiceDue q) s = .next t ∧
        (∀ k, t.queue k = if k = q then { s.queue k with rate := sum - 256, due := true }
          else s.queue k) ∧
        Counted (if (s.queue q).due then [.servicesMissed q] else []) s t ∧
        t.pacer.batchNumber = s.pacer.batchNumber ∧ PacerSettingsStand s t ∧
        KeepsAllBut [.pacer, .counters] s t)) ∧
  ∀ s, RestsBetweenEvents s →
    let arisen := s.lines.reset = false ∧ s.loader.gate.installed = true ∧
      s.report.snapshot = .notTaken ∧ ∃ k offset, s.report.cadence = some (k, offset) ∧
        s.report.frameCount.toNat % (16 * k) = offset
    (¬arisen → exec .statisticsSnapshot s = .next s) ∧
    (arisen →
      ∃ t, exec .statisticsSnapshot s = .next t ∧ SnapshotTaken s.report.frameCount s t ∧
        KeepsAllBut [] s t)

/-! ### Counts that run out -/

/-- CONFIRM_WINDOW_OPENS, SETTLE_WINDOW_ENDS, IDLE_PARK and RETRY_HOLD_EXPIRY: the last count of a
delay counter, of a settle counter, of an idle hoist in RUN and of a retry counter. A row has no
effect where its count is not the last (log entries 6 and 12). -/
def Obligations.LastCountsOfHoistsAndGroups : Prop :=
  ∀ s, RestsBetweenEvents s → s.lines.reset = false →
    (∀ slot,
      let opens := s.loader.gate = .guard ∧ ∃ h, s.hoist slot = some h ∧
        (h.power = .waking ∨ h.power = .releasing) ∧ h.delay = 1
      (¬opens → exec (.confirmWindowOpens slot) s = .next s) ∧
      ∀ h, opens → s.hoist slot = some h →
        ∃ t, exec (.confirmWindowOpens slot) s = .next t ∧
          HoistAlone slot { h with delay := 0 } s t) ∧
    (∀ slot,
      let ends := s.loader.gate = .guard ∧ ∃ h, s.hoist slot = some h ∧ h.settle = 1
      (¬ends → exec (.settleWindowEnds slot) s = .next s) ∧
      ∀ h, ends → s.hoist slot = some h →
        ∃ t, exec (.settleWindowEnds slot) s = .next t ∧
          HoistAlone slot { h with settle := 0 } s t) ∧
    (∀ slot,
      let parks := s.loader.gate = .guard ∧ ∃ h, s.hoist slot = some h ∧ s.parksNow slot h = true
      (¬parks → exec (.idlePark slot) s = .next s) ∧
      ∀ h, parks → s.hoist slot = some h →
        ∃ t, exec (.idlePark slot) s = .next t ∧
          HoistAlone slot (h.fallToStandby (s.confirmLimit.getD 0)) s t) ∧
    ∀ g,
      let expires := s.loader.gate = .guard ∧ ∃ r, s.group g = some r ∧ r.state = .held ∧
        r.policy = .retry ∧ r.retry = 1
      (¬expires → exec (.retryHoldExpiry g) s = .next s) ∧
      ∀ r, expires → s.group g = some r →
        ∃ t, exec (.retryHoldExpiry g) s = .next t ∧
          (∀ k, t.group k =
            if k = g then
              some (if ∀ m ∈ r.members, s.faulted m = false then
                { r with causes := .empty, retry := 0, state := .idle } else { r with retry := 0 })
            else s.group k) ∧
          KeepsAllBut [.groups] s t

/-- CONFIRM_TIMEOUT: the step up has failed, and the hoist falls back whether its cause set was
empty or not. STATUS_LOST: the status age stands at the timeout at a count. That each is a command
of its own, which makes its own last count on the state it meets, is the model's choice (log entry
6). -/
def Obligations.TimeoutsRaiseCauses : Prop :=
  (∀ s slot h, RestsBetweenEvents s → TrussesHeld s → s.lines.reset = false →
    s.loader.gate = .guard → s.hoist slot = some h → s.lastConfirm h = true →
    ∃ t, exec (.confirmTimeout slot) s = .next t ∧
      let off := h.power = .waking ∨ h.reported = some .off
      let fallen := if off then h.fallToOff else h.fallToStandby (s.confirmLimit.getD 0)
      let marked := { fallen with causes := { h.causes with confirmTimeout := true } }
      let records := [causeRecord slot .confirmTimeout
        (if h.power = .waking then 1 else 3, unsignedWord (s.confirmLimit.getD 0))]
      (h.causes = .empty → FirstCausesTaken slot marked id records s t) ∧
      (h.causes.confirmTimeout = true → HoistAlone slot fallen s t) ∧
      (h.causes ≠ .empty → h.causes.confirmTimeout = false →
        FurtherCausesTaken slot marked records s t)) ∧
  ∀ s slot h, RestsBetweenEvents s → TrussesHeld s → s.lines.reset = false →
    s.loader.gate = .guard → s.hoist slot = some h → s.statusTimeout.getD 0 ≤ h.age →
    ∃ t, exec (.statusLost slot) s = .next t ∧
      let causes := { h.causes with statusLost := true }
      let fallen :=
        if h.power.unbraked then
          if h.reported = some .off then h.fallToOff else h.fallToStandby (s.confirmLimit.getD 0)
        else h
      let records := [causeRecord slot .statusLost
        (unsignedWord h.age, unsignedWord (s.statusTimeout.getD 0))]
      (h.causes = .empty →
        FirstCausesTaken slot { fallen with causes := causes } id records s t) ∧
      (h.causes.statusLost = true → KeepsAllBut [] s t) ∧
      (h.causes ≠ .empty → h.causes.statusLost = false →
        FurtherCausesTaken slot
          { h with causes := causes, runDemand := h.power.unbraked && h.runDemand } records s t)

/-! ### The lines -/

/-- STOP_CHANNEL_OPENS and STOP_CHANNEL_CLOSES: an opening hands STOP_OPENED to the latch, a
closing changes no cause, and an event that makes the channels agree clears the discrepancy count
and may advance the required cycle. While RESET is asserted the channels do not take their lines.
That an event at a line already at its level has no effect is the model's choice (log entry 12),
and so are the mark of an abandoned batch in hand (log entry 16) and the kind SYNC of a hoist whose
SYNC record stood in it unwritten (log entry 31). -/
def Obligations.StopChannelsFollowTheirLines : Prop :=
  ∀ s c, RestsBetweenEvents s → ChannelsFollowLines s →
    (s.lines.stop c = .opened → exec (.stopChannelOpens c) s = .next s) ∧
    (s.lines.stop c = .closed → exec (.stopChannelCloses c) s = .next s) ∧
    (s.lines.stop c = .closed →
      ∃ t, exec (.stopChannelOpens c) s = .next t ∧ t.lines.stop c = .opened ∧
        (s.lines.reset = true → KeepsAllBut [.lineLevels] s t) ∧
        (s.lines.reset = false →
          ChannelMoved c .opened s t ∧
            CauseLatched .stopOpened none (if c = .a then 0 else 1) s.report.frameCount
              [.lineLevels] s t)) ∧
    (s.lines.stop c = .opened →
      ∃ t, exec (.stopChannelCloses c) s = .next t ∧ t.lines.stop c = .closed ∧
        (s.lines.reset = true → KeepsAllBut [.lineLevels] s t) ∧
        (s.lines.reset = false →
          ChannelMoved c .closed s t ∧ t.halt.latched = s.halt.latched ∧
            t.halt.causes = s.halt.causes ∧ KeepsAllBut [.lineLevels, .halt] s t))

/-- STOP_DISCREPANCY: the count reaches 8, STOP_DISCREPANCY is handed to the latch and a cycle is
required. That this is a command of its own, which makes the count from 7 to 8 outside a FRAME
arrival, is the model's choice (log entry 6); so are the mark of an abandoned batch in hand (log
entry 16) and the kind SYNC of a hoist whose SYNC record stood in it unwritten (log entry 31). -/
def Obligations.StopDiscrepancyLatches : Prop :=
  ∀ s, RestsBetweenEvents s → s.lines.reset = false →
    s.halt.channelA ≠ s.halt.channelB → s.halt.discrepancy = 7 →
    ∃ t, exec .stopDiscrepancy s = .next t ∧
      t.halt.discrepancy = 8 ∧ t.halt.cycle = .awaitOpen ∧
      t.halt.channelA = s.halt.channelA ∧ t.halt.channelB = s.halt.channelB ∧
      CauseLatched .stopDiscrepancy none (if s.halt.channelA = .opened then 0 else 1) 8 [] s t

/-- RESET_ASSERTED gives every block its RESET values, keeps the memory, the line levels and what
stands on the bus, and leaves an operation in flight to complete for no one; RESET_RELEASED takes
the channels from their lines. What stands on the bus, the words last returned and the operation in
flight are the model's (log entries 11, 13 and 14), and so are the events that find RESET at their
level already (log entry 12) and the channel states kept while RESET is asserted (log entry 27). -/
def Obligations.ResetAssertedAndReleased : Prop :=
  ∀ s,
    (s.lines.reset = true → exec .resetAsserted s = .next s) ∧
    (s.lines.reset = false → exec .resetReleased s = .next s) ∧
    (s.lines.reset = false →
      exec .resetAsserted s = .next { State.reset with
        port := { ControllerPort.reset with bus := s.port.bus, readData := s.port.readData }
        memPort := ⟨s.memPort.op.map fun op => { op with live := false }, .internal⟩
        halt := ⟨s.halt.channelA, s.halt.channelB, true, ⟨true, false, false, false⟩, 0,
          .notRequired⟩
        lines := ⟨s.lines.stopA, s.lines.stopB, true, false, false, .all true⟩
        mem := s.mem
        free := s.free
        pending := s.pending }) ∧
    (s.lines.reset = true → RestsBetweenEvents s →
      ∃ t, exec .resetReleased s = .next t ∧ t.lines.reset = false ∧
        (BlankUnlessInstalled s ∨ (∀ m, s.port.bus.get m = []) →
          t.halt = { s.halt with channelA := s.lines.stopA, channelB := s.lines.stopB }) ∧
        ((∀ m, s.port.bus.get m = []) →
          (∀ m, t.lines.wait.get m = (s.port.places.get m).occupied) ∧
            KeepsAllBut [.halt, .lineLevels] s t))

/-! ### Invariants that every step keeps -/

/-- The motion memory keeps its canonical form, and only the completion of a memory operation
changes it. -/
def Obligations.MemoryStaysCanonical : Prop :=
  ∀ s t, Memory.wf s.mem → step s = .next t →
    Memory.wf t.mem ∧
      ((∀ c ∈ s.pending.head?, c ≠ .passThroughComplete ∧ c ≠ .releaseWordComplete ∧
        c ≠ .reportWordComplete ∧ c ≠ .loadWordRead) → t.mem = s.mem)

/-- The drive command of every hoist follows its power state. -/
def Obligations.CommandsKeepFollowingPower : Prop :=
  ∀ s t, CommandsFollowPower s → step s = .next t → CommandsFollowPower t

/-- The fault report queue holds at most 32 records, and no record is left counted as dropped while
it has room. -/
def Obligations.ReportQueueStaysBounded : Prop :=
  ∀ s t, QueueBounded s → step s = .next t → QueueBounded t

/-- The lock state is NO_PASSWORD exactly while the gate is UNCONFIGURED or LOADING. -/
def Obligations.LockKeepsFollowingTheGate : Prop :=
  ∀ s t, LockFollowsGate s → step s = .next t → LockFollowsGate t

/-- The staging list holds at most one entry for a slot, within the slot's soft limits. -/
def Obligations.StagingStaysSound : Prop :=
  ∀ s t, StagingSound s → step s = .next t → StagingSound t

/-- No drive link engine read of the setpoint area completes while a batch is in progress. -/
def Obligations.SetpointReadsStayWhole : Prop :=
  ∀ s t, ReadsWhole s → step s = .next t → ReadsWhole t

/-- In GUARD no hoist is RELEASING or RUN while ENABLE is low. -/
def Obligations.BrakedWhileNotEnabled : Prop :=
  ∀ s t, RestsBetweenEvents s ∧ BrakedUnlessEnabled s → step s = .next t →
    RestsBetweenEvents t ∧ BrakedUnlessEnabled t

/-- In BYPASS, and in a halted GUARD, nothing is set to move. -/
def Obligations.RigStaysStillWhenStopped : Prop :=
  ∀ s t, StillWhenStopped s → step s = .next t → StillWhenStopped t

/-- A member with a fault cause belongs to a HELD group. -/
def Obligations.FaultedTrussesStayHeld : Prop :=
  ∀ s t, TrussesHeld s → step s = .next t → TrussesHeld t

/-- Every rate counter stays between 0 and 255 and every increment at most 256; a mover appears at
most once in all the lists, and at most one queue of each bank holds a resume point; an owed batch
names each slot once. -/
def Obligations.PacerStaysSound : Prop :=
  (∀ s t, RatesInRange s → step s = .next t → RatesInRange t) ∧
  (∀ s t, MoversOnce s ∧ ResumePointsSound s → step s = .next t →
    MoversOnce t ∧ ResumePointsSound t) ∧
  ∀ s t, OwedSlotsOnce s → step s = .next t → OwedSlotsOnce t

/-- The halt's cause set is empty exactly while the latch is CLEAR, and the channels follow their
lines; ENABLE, FAULT and WAIT show their conditions after every event. -/
def Obligations.HaltAndLinesStaySound : Prop :=
  (∀ s t, HaltCausesSound s ∧ ChannelsFollowLines s → step s = .next t →
    HaltCausesSound t ∧ ChannelsFollowLines t) ∧
  ∀ s t, LinesShow s → step s = .next t → LinesShow t

/-- What stands between events: no request answered and not yet closing, each place's and bus's
accesses their master's own, the drive link engine's held access its read of the setpoint area, and
configured regions apart within 000000h to 3FEFFFh. -/
def Obligations.PortStaysSound : Prop :=
  (∀ s t, RestsBetweenEvents s → step s = .next t → RestsBetweenEvents t) ∧
  (∀ s t, AccessesWithTheirMasters s → step s = .next t → AccessesWithTheirMasters t) ∧
  (∀ s t, AccessesWithTheirMasters s ∧ HeldSetpointRead s → step s = .next t →
    HeldSetpointRead t) ∧
  ∀ s t, RegionsApart s → step s = .next t → RegionsApart t
end

