-- ==== Sys2Proof/Laws/State.lean ====
section
/-! SUPPORT. One lemma per field of the state per update: what an update leaves as it was. -/

namespace Sys2Proof.Laws

open Sys2Proof.Machine

/-! ### answer -/

@[simp] theorem answer_port (s : State) (r : ResultCode) (d : Word) : (State.answer s r d).port = s.port := rfl

@[simp] theorem answer_memPort (s : State) (r : ResultCode) (d : Word) : (State.answer s r d).memPort = s.memPort := rfl

@[simp] theorem answer_regions (s : State) (r : ResultCode) (d : Word) : (State.answer s r d).regions = s.regions := rfl

@[simp] theorem answer_loader (s : State) (r : ResultCode) (d : Word) : (State.answer s r d).loader = s.loader := rfl

@[simp] theorem answer_lock (s : State) (r : ResultCode) (d : Word) : (State.answer s r d).lock = s.lock := rfl

@[simp] theorem answer_hoists (s : State) (r : ResultCode) (d : Word) : (State.answer s r d).hoists = s.hoists := rfl

@[simp] theorem answer_confirmLimit (s : State) (r : ResultCode) (d : Word) : (State.answer s r d).confirmLimit = s.confirmLimit := rfl

@[simp] theorem answer_idlePark (s : State) (r : ResultCode) (d : Word) : (State.answer s r d).idlePark = s.idlePark := rfl

@[simp] theorem answer_groups (s : State) (r : ResultCode) (d : Word) : (State.answer s r d).groups = s.groups := rfl

@[simp] theorem answer_goals (s : State) (r : ResultCode) (d : Word) : (State.answer s r d).goals = s.goals := rfl

@[simp] theorem answer_grid (s : State) (r : ResultCode) (d : Word) : (State.answer s r d).grid = s.grid := rfl

@[simp] theorem answer_pacer (s : State) (r : ResultCode) (d : Word) : (State.answer s r d).pacer = s.pacer := rfl

@[simp] theorem answer_writer (s : State) (r : ResultCode) (d : Word) : (State.answer s r d).writer = s.writer := rfl

@[simp] theorem answer_statusTimeout (s : State) (r : ResultCode) (d : Word) : (State.answer s r d).statusTimeout = s.statusTimeout := rfl

@[simp] theorem answer_halt (s : State) (r : ResultCode) (d : Word) : (State.answer s r d).halt = s.halt := rfl

@[simp] theorem answer_lines (s : State) (r : ResultCode) (d : Word) : (State.answer s r d).lines = s.lines := rfl

@[simp] theorem answer_mem (s : State) (r : ResultCode) (d : Word) : (State.answer s r d).mem = s.mem := rfl

@[simp] theorem answer_free (s : State) (r : ResultCode) (d : Word) : (State.answer s r d).free = s.free := rfl

@[simp] theorem answer_pending (s : State) (r : ResultCode) (d : Word) : (State.answer s r d).pending = s.pending := rfl

/-! ### count -/

@[simp] theorem count_port (s : State) (c : Counter) : (State.count s c).port = s.port := rfl

@[simp] theorem count_memPort (s : State) (c : Counter) : (State.count s c).memPort = s.memPort := rfl

@[simp] theorem count_regions (s : State) (c : Counter) : (State.count s c).regions = s.regions := rfl

@[simp] theorem count_loader (s : State) (c : Counter) : (State.count s c).loader = s.loader := rfl

@[simp] theorem count_lock (s : State) (c : Counter) : (State.count s c).lock = s.lock := rfl

@[simp] theorem count_hoists (s : State) (c : Counter) : (State.count s c).hoists = s.hoists := rfl

@[simp] theorem count_confirmLimit (s : State) (c : Counter) : (State.count s c).confirmLimit = s.confirmLimit := rfl

@[simp] theorem count_idlePark (s : State) (c : Counter) : (State.count s c).idlePark = s.idlePark := rfl

@[simp] theorem count_groups (s : State) (c : Counter) : (State.count s c).groups = s.groups := rfl

@[simp] theorem count_goals (s : State) (c : Counter) : (State.count s c).goals = s.goals := rfl

@[simp] theorem count_grid (s : State) (c : Counter) : (State.count s c).grid = s.grid := rfl

@[simp] theorem count_pacer (s : State) (c : Counter) : (State.count s c).pacer = s.pacer := rfl

@[simp] theorem count_writer (s : State) (c : Counter) : (State.count s c).writer = s.writer := rfl

@[simp] theorem count_statusTimeout (s : State) (c : Counter) : (State.count s c).statusTimeout = s.statusTimeout := rfl

@[simp] theorem count_halt (s : State) (c : Counter) : (State.count s c).halt = s.halt := rfl

@[simp] theorem count_requests (s : State) (c : Counter) : (State.count s c).requests = s.requests := rfl

@[simp] theorem count_lines (s : State) (c : Counter) : (State.count s c).lines = s.lines := rfl

@[simp] theorem count_mem (s : State) (c : Counter) : (State.count s c).mem = s.mem := rfl

@[simp] theorem count_free (s : State) (c : Counter) : (State.count s c).free = s.free := rfl

@[simp] theorem count_pending (s : State) (c : Counter) : (State.count s c).pending = s.pending := rfl

/-! ### updateQueue -/

@[simp] theorem updateQueue_port (s : State) (q : QueueNo) (f : PacingQueue → PacingQueue) : (State.updateQueue s q f).port = s.port := rfl

@[simp] theorem updateQueue_memPort (s : State) (q : QueueNo) (f : PacingQueue → PacingQueue) : (State.updateQueue s q f).memPort = s.memPort := rfl

@[simp] theorem updateQueue_regions (s : State) (q : QueueNo) (f : PacingQueue → PacingQueue) : (State.updateQueue s q f).regions = s.regions := rfl

@[simp] theorem updateQueue_loader (s : State) (q : QueueNo) (f : PacingQueue → PacingQueue) : (State.updateQueue s q f).loader = s.loader := rfl

@[simp] theorem updateQueue_lock (s : State) (q : QueueNo) (f : PacingQueue → PacingQueue) : (State.updateQueue s q f).lock = s.lock := rfl

@[simp] theorem updateQueue_hoists (s : State) (q : QueueNo) (f : PacingQueue → PacingQueue) : (State.updateQueue s q f).hoists = s.hoists := rfl

@[simp] theorem updateQueue_confirmLimit (s : State) (q : QueueNo) (f : PacingQueue → PacingQueue) : (State.updateQueue s q f).confirmLimit = s.confirmLimit := rfl

@[simp] theorem updateQueue_idlePark (s : State) (q : QueueNo) (f : PacingQueue → PacingQueue) : (State.updateQueue s q f).idlePark = s.idlePark := rfl

@[simp] theorem updateQueue_groups (s : State) (q : QueueNo) (f : PacingQueue → PacingQueue) : (State.updateQueue s q f).groups = s.groups := rfl

@[simp] theorem updateQueue_goals (s : State) (q : QueueNo) (f : PacingQueue → PacingQueue) : (State.updateQueue s q f).goals = s.goals := rfl

@[simp] theorem updateQueue_grid (s : State) (q : QueueNo) (f : PacingQueue → PacingQueue) : (State.updateQueue s q f).grid = s.grid := rfl

@[simp] theorem updateQueue_writer (s : State) (q : QueueNo) (f : PacingQueue → PacingQueue) : (State.updateQueue s q f).writer = s.writer := rfl

@[simp] theorem updateQueue_statusTimeout (s : State) (q : QueueNo) (f : PacingQueue → PacingQueue) : (State.updateQueue s q f).statusTimeout = s.statusTimeout := rfl

@[simp] theorem updateQueue_halt (s : State) (q : QueueNo) (f : PacingQueue → PacingQueue) : (State.updateQueue s q f).halt = s.halt := rfl

@[simp] theorem updateQueue_requests (s : State) (q : QueueNo) (f : PacingQueue → PacingQueue) : (State.updateQueue s q f).requests = s.requests := rfl

@[simp] theorem updateQueue_report (s : State) (q : QueueNo) (f : PacingQueue → PacingQueue) : (State.updateQueue s q f).report = s.report := rfl

@[simp] theorem updateQueue_lines (s : State) (q : QueueNo) (f : PacingQueue → PacingQueue) : (State.updateQueue s q f).lines = s.lines := rfl

@[simp] theorem updateQueue_mem (s : State) (q : QueueNo) (f : PacingQueue → PacingQueue) : (State.updateQueue s q f).mem = s.mem := rfl

@[simp] theorem updateQueue_free (s : State) (q : QueueNo) (f : PacingQueue → PacingQueue) : (State.updateQueue s q f).free = s.free := rfl

@[simp] theorem updateQueue_pending (s : State) (q : QueueNo) (f : PacingQueue → PacingQueue) : (State.updateQueue s q f).pending = s.pending := rfl

/-! ### setGate -/

@[simp] theorem setGate_port (s : State) (g : GateMode) : (setGate g s).port = s.port := rfl

@[simp] theorem setGate_memPort (s : State) (g : GateMode) : (setGate g s).memPort = s.memPort := rfl

@[simp] theorem setGate_regions (s : State) (g : GateMode) : (setGate g s).regions = s.regions := rfl

@[simp] theorem setGate_lock (s : State) (g : GateMode) : (setGate g s).lock = s.lock := rfl

@[simp] theorem setGate_hoists (s : State) (g : GateMode) : (setGate g s).hoists = s.hoists := rfl

@[simp] theorem setGate_confirmLimit (s : State) (g : GateMode) : (setGate g s).confirmLimit = s.confirmLimit := rfl

@[simp] theorem setGate_idlePark (s : State) (g : GateMode) : (setGate g s).idlePark = s.idlePark := rfl

@[simp] theorem setGate_groups (s : State) (g : GateMode) : (setGate g s).groups = s.groups := rfl

@[simp] theorem setGate_goals (s : State) (g : GateMode) : (setGate g s).goals = s.goals := rfl

@[simp] theorem setGate_grid (s : State) (g : GateMode) : (setGate g s).grid = s.grid := rfl

@[simp] theorem setGate_pacer (s : State) (g : GateMode) : (setGate g s).pacer = s.pacer := rfl

@[simp] theorem setGate_writer (s : State) (g : GateMode) : (setGate g s).writer = s.writer := rfl

@[simp] theorem setGate_statusTimeout (s : State) (g : GateMode) : (setGate g s).statusTimeout = s.statusTimeout := rfl

@[simp] theorem setGate_halt (s : State) (g : GateMode) : (setGate g s).halt = s.halt := rfl

@[simp] theorem setGate_requests (s : State) (g : GateMode) : (setGate g s).requests = s.requests := rfl

@[simp] theorem setGate_report (s : State) (g : GateMode) : (setGate g s).report = s.report := rfl

@[simp] theorem setGate_lines (s : State) (g : GateMode) : (setGate g s).lines = s.lines := rfl

@[simp] theorem setGate_mem (s : State) (g : GateMode) : (setGate g s).mem = s.mem := rfl

@[simp] theorem setGate_free (s : State) (g : GateMode) : (setGate g s).free = s.free := rfl

@[simp] theorem setGate_pending (s : State) (g : GateMode) : (setGate g s).pending = s.pending := rfl

/-! ### enterWaiting -/

@[simp] theorem enterWaiting_memPort (s : State) (a : Access) (ahead : Bool) : (enterWaiting a ahead s).memPort = s.memPort := rfl

@[simp] theorem enterWaiting_regions (s : State) (a : Access) (ahead : Bool) : (enterWaiting a ahead s).regions = s.regions := rfl

@[simp] theorem enterWaiting_loader (s : State) (a : Access) (ahead : Bool) : (enterWaiting a ahead s).loader = s.loader := rfl

@[simp] theorem enterWaiting_lock (s : State) (a : Access) (ahead : Bool) : (enterWaiting a ahead s).lock = s.lock := rfl

@[simp] theorem enterWaiting_hoists (s : State) (a : Access) (ahead : Bool) : (enterWaiting a ahead s).hoists = s.hoists := rfl

@[simp] theorem enterWaiting_confirmLimit (s : State) (a : Access) (ahead : Bool) : (enterWaiting a ahead s).confirmLimit = s.confirmLimit := rfl

@[simp] theorem enterWaiting_idlePark (s : State) (a : Access) (ahead : Bool) : (enterWaiting a ahead s).idlePark = s.idlePark := rfl

@[simp] theorem enterWaiting_groups (s : State) (a : Access) (ahead : Bool) : (enterWaiting a ahead s).groups = s.groups := rfl

@[simp] theorem enterWaiting_goals (s : State) (a : Access) (ahead : Bool) : (enterWaiting a ahead s).goals = s.goals := rfl

@[simp] theorem enterWaiting_grid (s : State) (a : Access) (ahead : Bool) : (enterWaiting a ahead s).grid = s.grid := rfl

@[simp] theorem enterWaiting_pacer (s : State) (a : Access) (ahead : Bool) : (enterWaiting a ahead s).pacer = s.pacer := rfl

@[simp] theorem enterWaiting_writer (s : State) (a : Access) (ahead : Bool) : (enterWaiting a ahead s).writer = s.writer := rfl

@[simp] theorem enterWaiting_statusTimeout (s : State) (a : Access) (ahead : Bool) : (enterWaiting a ahead s).statusTimeout = s.statusTimeout := rfl

@[simp] theorem enterWaiting_halt (s : State) (a : Access) (ahead : Bool) : (enterWaiting a ahead s).halt = s.halt := rfl

@[simp] theorem enterWaiting_requests (s : State) (a : Access) (ahead : Bool) : (enterWaiting a ahead s).requests = s.requests := rfl

@[simp] theorem enterWaiting_report (s : State) (a : Access) (ahead : Bool) : (enterWaiting a ahead s).report = s.report := rfl

@[simp] theorem enterWaiting_lines (s : State) (a : Access) (ahead : Bool) : (enterWaiting a ahead s).lines = s.lines := rfl

@[simp] theorem enterWaiting_mem (s : State) (a : Access) (ahead : Bool) : (enterWaiting a ahead s).mem = s.mem := rfl

@[simp] theorem enterWaiting_free (s : State) (a : Access) (ahead : Bool) : (enterWaiting a ahead s).free = s.free := rfl

@[simp] theorem enterWaiting_pending (s : State) (a : Access) (ahead : Bool) : (enterWaiting a ahead s).pending = s.pending := rfl

/-! ### emptyPlace -/

@[simp] theorem emptyPlace_memPort (s : State) (m : Mid) : (emptyPlace m s).memPort = s.memPort := rfl

@[simp] theorem emptyPlace_regions (s : State) (m : Mid) : (emptyPlace m s).regions = s.regions := rfl

@[simp] theorem emptyPlace_loader (s : State) (m : Mid) : (emptyPlace m s).loader = s.loader := rfl

@[simp] theorem emptyPlace_lock (s : State) (m : Mid) : (emptyPlace m s).lock = s.lock := rfl

@[simp] theorem emptyPlace_hoists (s : State) (m : Mid) : (emptyPlace m s).hoists = s.hoists := rfl

@[simp] theorem emptyPlace_confirmLimit (s : State) (m : Mid) : (emptyPlace m s).confirmLimit = s.confirmLimit := rfl

@[simp] theorem emptyPlace_idlePark (s : State) (m : Mid) : (emptyPlace m s).idlePark = s.idlePark := rfl

@[simp] theorem emptyPlace_groups (s : State) (m : Mid) : (emptyPlace m s).groups = s.groups := rfl

@[simp] theorem emptyPlace_goals (s : State) (m : Mid) : (emptyPlace m s).goals = s.goals := rfl

@[simp] theorem emptyPlace_grid (s : State) (m : Mid) : (emptyPlace m s).grid = s.grid := rfl

@[simp] theorem emptyPlace_pacer (s : State) (m : Mid) : (emptyPlace m s).pacer = s.pacer := rfl

@[simp] theorem emptyPlace_writer (s : State) (m : Mid) : (emptyPlace m s).writer = s.writer := rfl

@[simp] theorem emptyPlace_statusTimeout (s : State) (m : Mid) : (emptyPlace m s).statusTimeout = s.statusTimeout := rfl

@[simp] theorem emptyPlace_halt (s : State) (m : Mid) : (emptyPlace m s).halt = s.halt := rfl

@[simp] theorem emptyPlace_requests (s : State) (m : Mid) : (emptyPlace m s).requests = s.requests := rfl

@[simp] theorem emptyPlace_report (s : State) (m : Mid) : (emptyPlace m s).report = s.report := rfl

@[simp] theorem emptyPlace_lines (s : State) (m : Mid) : (emptyPlace m s).lines = s.lines := rfl

@[simp] theorem emptyPlace_mem (s : State) (m : Mid) : (emptyPlace m s).mem = s.mem := rfl

@[simp] theorem emptyPlace_free (s : State) (m : Mid) : (emptyPlace m s).free = s.free := rfl

@[simp] theorem emptyPlace_pending (s : State) (m : Mid) : (emptyPlace m s).pending = s.pending := rfl

/-! ### returnData -/

@[simp] theorem returnData_memPort (s : State) (m : Mid) (w : Word) : (returnData m w s).memPort = s.memPort := rfl

@[simp] theorem returnData_regions (s : State) (m : Mid) (w : Word) : (returnData m w s).regions = s.regions := rfl

@[simp] theorem returnData_loader (s : State) (m : Mid) (w : Word) : (returnData m w s).loader = s.loader := rfl

@[simp] theorem returnData_lock (s : State) (m : Mid) (w : Word) : (returnData m w s).lock = s.lock := rfl

@[simp] theorem returnData_hoists (s : State) (m : Mid) (w : Word) : (returnData m w s).hoists = s.hoists := rfl

@[simp] theorem returnData_confirmLimit (s : State) (m : Mid) (w : Word) : (returnData m w s).confirmLimit = s.confirmLimit := rfl

@[simp] theorem returnData_idlePark (s : State) (m : Mid) (w : Word) : (returnData m w s).idlePark = s.idlePark := rfl

@[simp] theorem returnData_groups (s : State) (m : Mid) (w : Word) : (returnData m w s).groups = s.groups := rfl

@[simp] theorem returnData_goals (s : State) (m : Mid) (w : Word) : (returnData m w s).goals = s.goals := rfl

@[simp] theorem returnData_grid (s : State) (m : Mid) (w : Word) : (returnData m w s).grid = s.grid := rfl

@[simp] theorem returnData_pacer (s : State) (m : Mid) (w : Word) : (returnData m w s).pacer = s.pacer := rfl

@[simp] theorem returnData_writer (s : State) (m : Mid) (w : Word) : (returnData m w s).writer = s.writer := rfl

@[simp] theorem returnData_statusTimeout (s : State) (m : Mid) (w : Word) : (returnData m w s).statusTimeout = s.statusTimeout := rfl

@[simp] theorem returnData_halt (s : State) (m : Mid) (w : Word) : (returnData m w s).halt = s.halt := rfl

@[simp] theorem returnData_requests (s : State) (m : Mid) (w : Word) : (returnData m w s).requests = s.requests := rfl

@[simp] theorem returnData_report (s : State) (m : Mid) (w : Word) : (returnData m w s).report = s.report := rfl

@[simp] theorem returnData_lines (s : State) (m : Mid) (w : Word) : (returnData m w s).lines = s.lines := rfl

@[simp] theorem returnData_mem (s : State) (m : Mid) (w : Word) : (returnData m w s).mem = s.mem := rfl

@[simp] theorem returnData_free (s : State) (m : Mid) (w : Word) : (returnData m w s).free = s.free := rfl

@[simp] theorem returnData_pending (s : State) (m : Mid) (w : Word) : (returnData m w s).pending = s.pending := rfl

/-! ### setBus -/

@[simp] theorem setBus_memPort (s : State) (m : Mid) (l : List Access) : (setBus m l s).memPort = s.memPort := rfl

@[simp] theorem setBus_regions (s : State) (m : Mid) (l : List Access) : (setBus m l s).regions = s.regions := rfl

@[simp] theorem setBus_loader (s : State) (m : Mid) (l : List Access) : (setBus m l s).loader = s.loader := rfl

@[simp] theorem setBus_lock (s : State) (m : Mid) (l : List Access) : (setBus m l s).lock = s.lock := rfl

@[simp] theorem setBus_hoists (s : State) (m : Mid) (l : List Access) : (setBus m l s).hoists = s.hoists := rfl

@[simp] theorem setBus_confirmLimit (s : State) (m : Mid) (l : List Access) : (setBus m l s).confirmLimit = s.confirmLimit := rfl

@[simp] theorem setBus_idlePark (s : State) (m : Mid) (l : List Access) : (setBus m l s).idlePark = s.idlePark := rfl

@[simp] theorem setBus_groups (s : State) (m : Mid) (l : List Access) : (setBus m l s).groups = s.groups := rfl

@[simp] theorem setBus_goals (s : State) (m : Mid) (l : List Access) : (setBus m l s).goals = s.goals := rfl

@[simp] theorem setBus_grid (s : State) (m : Mid) (l : List Access) : (setBus m l s).grid = s.grid := rfl

@[simp] theorem setBus_pacer (s : State) (m : Mid) (l : List Access) : (setBus m l s).pacer = s.pacer := rfl

@[simp] theorem setBus_writer (s : State) (m : Mid) (l : List Access) : (setBus m l s).writer = s.writer := rfl

@[simp] theorem setBus_statusTimeout (s : State) (m : Mid) (l : List Access) : (setBus m l s).statusTimeout = s.statusTimeout := rfl

@[simp] theorem setBus_halt (s : State) (m : Mid) (l : List Access) : (setBus m l s).halt = s.halt := rfl

@[simp] theorem setBus_requests (s : State) (m : Mid) (l : List Access) : (setBus m l s).requests = s.requests := rfl

@[simp] theorem setBus_report (s : State) (m : Mid) (l : List Access) : (setBus m l s).report = s.report := rfl

@[simp] theorem setBus_lines (s : State) (m : Mid) (l : List Access) : (setBus m l s).lines = s.lines := rfl

@[simp] theorem setBus_mem (s : State) (m : Mid) (l : List Access) : (setBus m l s).mem = s.mem := rfl

@[simp] theorem setBus_free (s : State) (m : Mid) (l : List Access) : (setBus m l s).free = s.free := rfl

@[simp] theorem setBus_pending (s : State) (m : Mid) (l : List Access) : (setBus m l s).pending = s.pending := rfl

/-! ### takeSnapshot -/

@[simp] theorem takeSnapshot_port (s : State) : (takeSnapshot s).port = s.port := rfl

@[simp] theorem takeSnapshot_memPort (s : State) : (takeSnapshot s).memPort = s.memPort := rfl

@[simp] theorem takeSnapshot_regions (s : State) : (takeSnapshot s).regions = s.regions := rfl

@[simp] theorem takeSnapshot_loader (s : State) : (takeSnapshot s).loader = s.loader := rfl

@[simp] theorem takeSnapshot_lock (s : State) : (takeSnapshot s).lock = s.lock := rfl

@[simp] theorem takeSnapshot_hoists (s : State) : (takeSnapshot s).hoists = s.hoists := rfl

@[simp] theorem takeSnapshot_confirmLimit (s : State) : (takeSnapshot s).confirmLimit = s.confirmLimit := rfl

@[simp] theorem takeSnapshot_idlePark (s : State) : (takeSnapshot s).idlePark = s.idlePark := rfl

@[simp] theorem takeSnapshot_groups (s : State) : (takeSnapshot s).groups = s.groups := rfl

@[simp] theorem takeSnapshot_goals (s : State) : (takeSnapshot s).goals = s.goals := rfl

@[simp] theorem takeSnapshot_grid (s : State) : (takeSnapshot s).grid = s.grid := rfl

@[simp] theorem takeSnapshot_pacer (s : State) : (takeSnapshot s).pacer = s.pacer := rfl

@[simp] theorem takeSnapshot_writer (s : State) : (takeSnapshot s).writer = s.writer := rfl

@[simp] theorem takeSnapshot_statusTimeout (s : State) : (takeSnapshot s).statusTimeout = s.statusTimeout := rfl

@[simp] theorem takeSnapshot_halt (s : State) : (takeSnapshot s).halt = s.halt := rfl

@[simp] theorem takeSnapshot_requests (s : State) : (takeSnapshot s).requests = s.requests := rfl

@[simp] theorem takeSnapshot_lines (s : State) : (takeSnapshot s).lines = s.lines := rfl

@[simp] theorem takeSnapshot_mem (s : State) : (takeSnapshot s).mem = s.mem := rfl

@[simp] theorem takeSnapshot_free (s : State) : (takeSnapshot s).free = s.free := rfl

@[simp] theorem takeSnapshot_pending (s : State) : (takeSnapshot s).pending = s.pending := rfl

/-! ### markChanges -/

@[simp] theorem markChanges_port (s : State) (before : State) : (markChanges before s).port = s.port := by unfold markChanges; rfl

@[simp] theorem markChanges_memPort (s : State) (before : State) : (markChanges before s).memPort = s.memPort := by unfold markChanges; rfl

@[simp] theorem markChanges_regions (s : State) (before : State) : (markChanges before s).regions = s.regions := by unfold markChanges; rfl

@[simp] theorem markChanges_loader (s : State) (before : State) : (markChanges before s).loader = s.loader := by unfold markChanges; rfl

@[simp] theorem markChanges_lock (s : State) (before : State) : (markChanges before s).lock = s.lock := by unfold markChanges; rfl

@[simp] theorem markChanges_hoists (s : State) (before : State) : (markChanges before s).hoists = s.hoists := by unfold markChanges; rfl

@[simp] theorem markChanges_confirmLimit (s : State) (before : State) : (markChanges before s).confirmLimit = s.confirmLimit := by unfold markChanges; rfl

@[simp] theorem markChanges_idlePark (s : State) (before : State) : (markChanges before s).idlePark = s.idlePark := by unfold markChanges; rfl

@[simp] theorem markChanges_groups (s : State) (before : State) : (markChanges before s).groups = s.groups := by unfold markChanges; rfl

@[simp] theorem markChanges_goals (s : State) (before : State) : (markChanges before s).goals = s.goals := by unfold markChanges; rfl

@[simp] theorem markChanges_grid (s : State) (before : State) : (markChanges before s).grid = s.grid := by unfold markChanges; rfl

@[simp] theorem markChanges_pacer (s : State) (before : State) : (markChanges before s).pacer = s.pacer := by unfold markChanges; rfl

@[simp] theorem markChanges_writer (s : State) (before : State) : (markChanges before s).writer = s.writer := by unfold markChanges; rfl

@[simp] theorem markChanges_statusTimeout (s : State) (before : State) : (markChanges before s).statusTimeout = s.statusTimeout := by unfold markChanges; rfl

@[simp] theorem markChanges_halt (s : State) (before : State) : (markChanges before s).halt = s.halt := by unfold markChanges; rfl

@[simp] theorem markChanges_requests (s : State) (before : State) : (markChanges before s).requests = s.requests := by unfold markChanges; rfl

@[simp] theorem markChanges_lines (s : State) (before : State) : (markChanges before s).lines = s.lines := by unfold markChanges; rfl

@[simp] theorem markChanges_mem (s : State) (before : State) : (markChanges before s).mem = s.mem := by unfold markChanges; rfl

@[simp] theorem markChanges_free (s : State) (before : State) : (markChanges before s).free = s.free := by unfold markChanges; rfl

@[simp] theorem markChanges_pending (s : State) (before : State) : (markChanges before s).pending = s.pending := by unfold markChanges; rfl

/-! ### driveLines -/

@[simp] theorem driveLines_port (s : State) : (driveLines s).port = s.port := rfl

@[simp] theorem driveLines_memPort (s : State) : (driveLines s).memPort = s.memPort := rfl

@[simp] theorem driveLines_regions (s : State) : (driveLines s).regions = s.regions := rfl

@[simp] theorem driveLines_loader (s : State) : (driveLines s).loader = s.loader := rfl

@[simp] theorem driveLines_lock (s : State) : (driveLines s).lock = s.lock := rfl

@[simp] theorem driveLines_hoists (s : State) : (driveLines s).hoists = s.hoists := rfl

@[simp] theorem driveLines_confirmLimit (s : State) : (driveLines s).confirmLimit = s.confirmLimit := rfl

@[simp] theorem driveLines_idlePark (s : State) : (driveLines s).idlePark = s.idlePark := rfl

@[simp] theorem driveLines_groups (s : State) : (driveLines s).groups = s.groups := rfl

@[simp] theorem driveLines_goals (s : State) : (driveLines s).goals = s.goals := rfl

@[simp] theorem driveLines_grid (s : State) : (driveLines s).grid = s.grid := rfl

@[simp] theorem driveLines_pacer (s : State) : (driveLines s).pacer = s.pacer := rfl

@[simp] theorem driveLines_writer (s : State) : (driveLines s).writer = s.writer := rfl

@[simp] theorem driveLines_statusTimeout (s : State) : (driveLines s).statusTimeout = s.statusTimeout := rfl

@[simp] theorem driveLines_halt (s : State) : (driveLines s).halt = s.halt := rfl

@[simp] theorem driveLines_requests (s : State) : (driveLines s).requests = s.requests := rfl

@[simp] theorem driveLines_report (s : State) : (driveLines s).report = s.report := rfl

@[simp] theorem driveLines_mem (s : State) : (driveLines s).mem = s.mem := rfl

@[simp] theorem driveLines_free (s : State) : (driveLines s).free = s.free := rfl

@[simp] theorem driveLines_pending (s : State) : (driveLines s).pending = s.pending := rfl

/-! ### handBatch -/

@[simp] theorem handBatch_port (s : State) (b : Batch) : (handBatch b s).port = s.port := rfl

@[simp] theorem handBatch_memPort (s : State) (b : Batch) : (handBatch b s).memPort = s.memPort := rfl

@[simp] theorem handBatch_regions (s : State) (b : Batch) : (handBatch b s).regions = s.regions := rfl

@[simp] theorem handBatch_loader (s : State) (b : Batch) : (handBatch b s).loader = s.loader := rfl

@[simp] theorem handBatch_lock (s : State) (b : Batch) : (handBatch b s).lock = s.lock := rfl

@[simp] theorem handBatch_hoists (s : State) (b : Batch) : (handBatch b s).hoists = s.hoists := rfl

@[simp] theorem handBatch_confirmLimit (s : State) (b : Batch) : (handBatch b s).confirmLimit = s.confirmLimit := rfl

@[simp] theorem handBatch_idlePark (s : State) (b : Batch) : (handBatch b s).idlePark = s.idlePark := rfl

@[simp] theorem handBatch_groups (s : State) (b : Batch) : (handBatch b s).groups = s.groups := rfl

@[simp] theorem handBatch_goals (s : State) (b : Batch) : (handBatch b s).goals = s.goals := rfl

@[simp] theorem handBatch_grid (s : State) (b : Batch) : (handBatch b s).grid = s.grid := rfl

@[simp] theorem handBatch_pacer (s : State) (b : Batch) : (handBatch b s).pacer = s.pacer := rfl

@[simp] theorem handBatch_statusTimeout (s : State) (b : Batch) : (handBatch b s).statusTimeout = s.statusTimeout := rfl

@[simp] theorem handBatch_halt (s : State) (b : Batch) : (handBatch b s).halt = s.halt := rfl

@[simp] theorem handBatch_requests (s : State) (b : Batch) : (handBatch b s).requests = s.requests := rfl

@[simp] theorem handBatch_report (s : State) (b : Batch) : (handBatch b s).report = s.report := rfl

@[simp] theorem handBatch_lines (s : State) (b : Batch) : (handBatch b s).lines = s.lines := rfl

@[simp] theorem handBatch_mem (s : State) (b : Batch) : (handBatch b s).mem = s.mem := rfl

@[simp] theorem handBatch_free (s : State) (b : Batch) : (handBatch b s).free = s.free := rfl

@[simp] theorem handBatch_pending (s : State) (b : Batch) : (handBatch b s).pending = s.pending := rfl

/-! ### startOp -/

@[simp] theorem startOp_port (s : State) (c : Claimant) (a : Addr) (o : AccessOp) (g : Grant) : (startOp c a o g s).port = s.port := rfl

@[simp] theorem startOp_regions (s : State) (c : Claimant) (a : Addr) (o : AccessOp) (g : Grant) : (startOp c a o g s).regions = s.regions := rfl

@[simp] theorem startOp_loader (s : State) (c : Claimant) (a : Addr) (o : AccessOp) (g : Grant) : (startOp c a o g s).loader = s.loader := rfl

@[simp] theorem startOp_lock (s : State) (c : Claimant) (a : Addr) (o : AccessOp) (g : Grant) : (startOp c a o g s).lock = s.lock := rfl

@[simp] theorem startOp_hoists (s : State) (c : Claimant) (a : Addr) (o : AccessOp) (g : Grant) : (startOp c a o g s).hoists = s.hoists := rfl

@[simp] theorem startOp_confirmLimit (s : State) (c : Claimant) (a : Addr) (o : AccessOp) (g : Grant) : (startOp c a o g s).confirmLimit = s.confirmLimit := rfl

@[simp] theorem startOp_idlePark (s : State) (c : Claimant) (a : Addr) (o : AccessOp) (g : Grant) : (startOp c a o g s).idlePark = s.idlePark := rfl

@[simp] theorem startOp_groups (s : State) (c : Claimant) (a : Addr) (o : AccessOp) (g : Grant) : (startOp c a o g s).groups = s.groups := rfl

@[simp] theorem startOp_goals (s : State) (c : Claimant) (a : Addr) (o : AccessOp) (g : Grant) : (startOp c a o g s).goals = s.goals := rfl

@[simp] theorem startOp_grid (s : State) (c : Claimant) (a : Addr) (o : AccessOp) (g : Grant) : (startOp c a o g s).grid = s.grid := rfl

@[simp] theorem startOp_pacer (s : State) (c : Claimant) (a : Addr) (o : AccessOp) (g : Grant) : (startOp c a o g s).pacer = s.pacer := rfl

@[simp] theorem startOp_writer (s : State) (c : Claimant) (a : Addr) (o : AccessOp) (g : Grant) : (startOp c a o g s).writer = s.writer := rfl

@[simp] theorem startOp_statusTimeout (s : State) (c : Claimant) (a : Addr) (o : AccessOp) (g : Grant) : (startOp c a o g s).statusTimeout = s.statusTimeout := rfl

@[simp] theorem startOp_halt (s : State) (c : Claimant) (a : Addr) (o : AccessOp) (g : Grant) : (startOp c a o g s).halt = s.halt := rfl

@[simp] theorem startOp_requests (s : State) (c : Claimant) (a : Addr) (o : AccessOp) (g : Grant) : (startOp c a o g s).requests = s.requests := rfl

@[simp] theorem startOp_report (s : State) (c : Claimant) (a : Addr) (o : AccessOp) (g : Grant) : (startOp c a o g s).report = s.report := rfl

@[simp] theorem startOp_lines (s : State) (c : Claimant) (a : Addr) (o : AccessOp) (g : Grant) : (startOp c a o g s).lines = s.lines := rfl

@[simp] theorem startOp_mem (s : State) (c : Claimant) (a : Addr) (o : AccessOp) (g : Grant) : (startOp c a o g s).mem = s.mem := rfl

@[simp] theorem startOp_free (s : State) (c : Claimant) (a : Addr) (o : AccessOp) (g : Grant) : (startOp c a o g s).free = s.free := rfl

@[simp] theorem startOp_pending (s : State) (c : Claimant) (a : Addr) (o : AccessOp) (g : Grant) : (startOp c a o g s).pending = s.pending := rfl

/-! ### emptyStaging -/

@[simp] theorem emptyStaging_port (s : State) : (emptyStaging s).port = s.port := rfl

@[simp] theorem emptyStaging_memPort (s : State) : (emptyStaging s).memPort = s.memPort := rfl

@[simp] theorem emptyStaging_regions (s : State) : (emptyStaging s).regions = s.regions := rfl

@[simp] theorem emptyStaging_loader (s : State) : (emptyStaging s).loader = s.loader := rfl

@[simp] theorem emptyStaging_lock (s : State) : (emptyStaging s).lock = s.lock := rfl

@[simp] theorem emptyStaging_hoists (s : State) : (emptyStaging s).hoists = s.hoists := rfl

@[simp] theorem emptyStaging_confirmLimit (s : State) : (emptyStaging s).confirmLimit = s.confirmLimit := rfl

@[simp] theorem emptyStaging_idlePark (s : State) : (emptyStaging s).idlePark = s.idlePark := rfl

@[simp] theorem emptyStaging_groups (s : State) : (emptyStaging s).groups = s.groups := rfl

@[simp] theorem emptyStaging_grid (s : State) : (emptyStaging s).grid = s.grid := rfl

@[simp] theorem emptyStaging_pacer (s : State) : (emptyStaging s).pacer = s.pacer := rfl

@[simp] theorem emptyStaging_writer (s : State) : (emptyStaging s).writer = s.writer := rfl

@[simp] theorem emptyStaging_statusTimeout (s : State) : (emptyStaging s).statusTimeout = s.statusTimeout := rfl

@[simp] theorem emptyStaging_halt (s : State) : (emptyStaging s).halt = s.halt := rfl

@[simp] theorem emptyStaging_requests (s : State) : (emptyStaging s).requests = s.requests := rfl

@[simp] theorem emptyStaging_report (s : State) : (emptyStaging s).report = s.report := rfl

@[simp] theorem emptyStaging_lines (s : State) : (emptyStaging s).lines = s.lines := rfl

@[simp] theorem emptyStaging_mem (s : State) : (emptyStaging s).mem = s.mem := rfl

@[simp] theorem emptyStaging_free (s : State) : (emptyStaging s).free = s.free := rfl

@[simp] theorem emptyStaging_pending (s : State) : (emptyStaging s).pending = s.pending := rfl

/-! ### setPendingFrame -/

@[simp] theorem setPendingFrame_port (s : State) (b : Bool) : (setPendingFrame b s).port = s.port := rfl

@[simp] theorem setPendingFrame_memPort (s : State) (b : Bool) : (setPendingFrame b s).memPort = s.memPort := rfl

@[simp] theorem setPendingFrame_regions (s : State) (b : Bool) : (setPendingFrame b s).regions = s.regions := rfl

@[simp] theorem setPendingFrame_loader (s : State) (b : Bool) : (setPendingFrame b s).loader = s.loader := rfl

@[simp] theorem setPendingFrame_lock (s : State) (b : Bool) : (setPendingFrame b s).lock = s.lock := rfl

@[simp] theorem setPendingFrame_hoists (s : State) (b : Bool) : (setPendingFrame b s).hoists = s.hoists := rfl

@[simp] theorem setPendingFrame_confirmLimit (s : State) (b : Bool) : (setPendingFrame b s).confirmLimit = s.confirmLimit := rfl

@[simp] theorem setPendingFrame_idlePark (s : State) (b : Bool) : (setPendingFrame b s).idlePark = s.idlePark := rfl

@[simp] theorem setPendingFrame_groups (s : State) (b : Bool) : (setPendingFrame b s).groups = s.groups := rfl

@[simp] theorem setPendingFrame_goals (s : State) (b : Bool) : (setPendingFrame b s).goals = s.goals := rfl

@[simp] theorem setPendingFrame_grid (s : State) (b : Bool) : (setPendingFrame b s).grid = s.grid := rfl

@[simp] theorem setPendingFrame_writer (s : State) (b : Bool) : (setPendingFrame b s).writer = s.writer := rfl

@[simp] theorem setPendingFrame_statusTimeout (s : State) (b : Bool) : (setPendingFrame b s).statusTimeout = s.statusTimeout := rfl

@[simp] theorem setPendingFrame_halt (s : State) (b : Bool) : (setPendingFrame b s).halt = s.halt := rfl

@[simp] theorem setPendingFrame_requests (s : State) (b : Bool) : (setPendingFrame b s).requests = s.requests := rfl

@[simp] theorem setPendingFrame_report (s : State) (b : Bool) : (setPendingFrame b s).report = s.report := rfl

@[simp] theorem setPendingFrame_lines (s : State) (b : Bool) : (setPendingFrame b s).lines = s.lines := rfl

@[simp] theorem setPendingFrame_mem (s : State) (b : Bool) : (setPendingFrame b s).mem = s.mem := rfl

@[simp] theorem setPendingFrame_free (s : State) (b : Bool) : (setPendingFrame b s).free = s.free := rfl

@[simp] theorem setPendingFrame_pending (s : State) (b : Bool) : (setPendingFrame b s).pending = s.pending := rfl

/-! ### updateHoist -/

@[simp] theorem updateHoist_port (s : State) (slot : Slot) (f : Hoist → Hoist) : (State.updateHoist s slot f).port = s.port := by
  unfold State.updateHoist; (repeat' split) <;> rfl

@[simp] theorem updateHoist_memPort (s : State) (slot : Slot) (f : Hoist → Hoist) : (State.updateHoist s slot f).memPort = s.memPort := by
  unfold State.updateHoist; (repeat' split) <;> rfl

@[simp] theorem updateHoist_regions (s : State) (slot : Slot) (f : Hoist → Hoist) : (State.updateHoist s slot f).regions = s.regions := by
  unfold State.updateHoist; (repeat' split) <;> rfl

@[simp] theorem updateHoist_loader (s : State) (slot : Slot) (f : Hoist → Hoist) : (State.updateHoist s slot f).loader = s.loader := by
  unfold State.updateHoist; (repeat' split) <;> rfl

@[simp] theorem updateHoist_lock (s : State) (slot : Slot) (f : Hoist → Hoist) : (State.updateHoist s slot f).lock = s.lock := by
  unfold State.updateHoist; (repeat' split) <;> rfl

@[simp] theorem updateHoist_confirmLimit (s : State) (slot : Slot) (f : Hoist → Hoist) : (State.updateHoist s slot f).confirmLimit = s.confirmLimit := by
  unfold State.updateHoist; (repeat' split) <;> rfl

@[simp] theorem updateHoist_idlePark (s : State) (slot : Slot) (f : Hoist → Hoist) : (State.updateHoist s slot f).idlePark = s.idlePark := by
  unfold State.updateHoist; (repeat' split) <;> rfl

@[simp] theorem updateHoist_groups (s : State) (slot : Slot) (f : Hoist → Hoist) : (State.updateHoist s slot f).groups = s.groups := by
  unfold State.updateHoist; (repeat' split) <;> rfl

@[simp] theorem updateHoist_goals (s : State) (slot : Slot) (f : Hoist → Hoist) : (State.updateHoist s slot f).goals = s.goals := by
  unfold State.updateHoist; (repeat' split) <;> rfl

@[simp] theorem updateHoist_grid (s : State) (slot : Slot) (f : Hoist → Hoist) : (State.updateHoist s slot f).grid = s.grid := by
  unfold State.updateHoist; (repeat' split) <;> rfl

@[simp] theorem updateHoist_pacer (s : State) (slot : Slot) (f : Hoist → Hoist) : (State.updateHoist s slot f).pacer = s.pacer := by
  unfold State.updateHoist; (repeat' split) <;> rfl

@[simp] theorem updateHoist_writer (s : State) (slot : Slot) (f : Hoist → Hoist) : (State.updateHoist s slot f).writer = s.writer := by
  unfold State.updateHoist; (repeat' split) <;> rfl

@[simp] theorem updateHoist_statusTimeout (s : State) (slot : Slot) (f : Hoist → Hoist) : (State.updateHoist s slot f).statusTimeout = s.statusTimeout := by
  unfold State.updateHoist; (repeat' split) <;> rfl

@[simp] theorem updateHoist_halt (s : State) (slot : Slot) (f : Hoist → Hoist) : (State.updateHoist s slot f).halt = s.halt := by
  unfold State.updateHoist; (repeat' split) <;> rfl

@[simp] theorem updateHoist_requests (s : State) (slot : Slot) (f : Hoist → Hoist) : (State.updateHoist s slot f).requests = s.requests := by
  unfold State.updateHoist; (repeat' split) <;> rfl

@[simp] theorem updateHoist_report (s : State) (slot : Slot) (f : Hoist → Hoist) : (State.updateHoist s slot f).report = s.report := by
  unfold State.updateHoist; (repeat' split) <;> rfl

@[simp] theorem updateHoist_lines (s : State) (slot : Slot) (f : Hoist → Hoist) : (State.updateHoist s slot f).lines = s.lines := by
  unfold State.updateHoist; (repeat' split) <;> rfl

@[simp] theorem updateHoist_mem (s : State) (slot : Slot) (f : Hoist → Hoist) : (State.updateHoist s slot f).mem = s.mem := by
  unfold State.updateHoist; (repeat' split) <;> rfl

@[simp] theorem updateHoist_free (s : State) (slot : Slot) (f : Hoist → Hoist) : (State.updateHoist s slot f).free = s.free := by
  unfold State.updateHoist; (repeat' split) <;> rfl

@[simp] theorem updateHoist_pending (s : State) (slot : Slot) (f : Hoist → Hoist) : (State.updateHoist s slot f).pending = s.pending := by
  unfold State.updateHoist; (repeat' split) <;> rfl

/-! ### updateGroup -/

@[simp] theorem updateGroup_port (s : State) (g : GroupNo) (f : TrussGroup → TrussGroup) : (State.updateGroup s g f).port = s.port := by
  unfold State.updateGroup; (repeat' split) <;> rfl

@[simp] theorem updateGroup_memPort (s : State) (g : GroupNo) (f : TrussGroup → TrussGroup) : (State.updateGroup s g f).memPort = s.memPort := by
  unfold State.updateGroup; (repeat' split) <;> rfl

@[simp] theorem updateGroup_regions (s : State) (g : GroupNo) (f : TrussGroup → TrussGroup) : (State.updateGroup s g f).regions = s.regions := by
  unfold State.updateGroup; (repeat' split) <;> rfl

@[simp] theorem updateGroup_loader (s : State) (g : GroupNo) (f : TrussGroup → TrussGroup) : (State.updateGroup s g f).loader = s.loader := by
  unfold State.updateGroup; (repeat' split) <;> rfl

@[simp] theorem updateGroup_lock (s : State) (g : GroupNo) (f : TrussGroup → TrussGroup) : (State.updateGroup s g f).lock = s.lock := by
  unfold State.updateGroup; (repeat' split) <;> rfl

@[simp] theorem updateGroup_hoists (s : State) (g : GroupNo) (f : TrussGroup → TrussGroup) : (State.updateGroup s g f).hoists = s.hoists := by
  unfold State.updateGroup; (repeat' split) <;> rfl

@[simp] theorem updateGroup_confirmLimit (s : State) (g : GroupNo) (f : TrussGroup → TrussGroup) : (State.updateGroup s g f).confirmLimit = s.confirmLimit := by
  unfold State.updateGroup; (repeat' split) <;> rfl

@[simp] theorem updateGroup_idlePark (s : State) (g : GroupNo) (f : TrussGroup → TrussGroup) : (State.updateGroup s g f).idlePark = s.idlePark := by
  unfold State.updateGroup; (repeat' split) <;> rfl

@[simp] theorem updateGroup_goals (s : State) (g : GroupNo) (f : TrussGroup → TrussGroup) : (State.updateGroup s g f).goals = s.goals := by
  unfold State.updateGroup; (repeat' split) <;> rfl

@[simp] theorem updateGroup_grid (s : State) (g : GroupNo) (f : TrussGroup → TrussGroup) : (State.updateGroup s g f).grid = s.grid := by
  unfold State.updateGroup; (repeat' split) <;> rfl

@[simp] theorem updateGroup_pacer (s : State) (g : GroupNo) (f : TrussGroup → TrussGroup) : (State.updateGroup s g f).pacer = s.pacer := by
  unfold State.updateGroup; (repeat' split) <;> rfl

@[simp] theorem updateGroup_writer (s : State) (g : GroupNo) (f : TrussGroup → TrussGroup) : (State.updateGroup s g f).writer = s.writer := by
  unfold State.updateGroup; (repeat' split) <;> rfl

@[simp] theorem updateGroup_statusTimeout (s : State) (g : GroupNo) (f : TrussGroup → TrussGroup) : (State.updateGroup s g f).statusTimeout = s.statusTimeout := by
  unfold State.updateGroup; (repeat' split) <;> rfl

@[simp] theorem updateGroup_halt (s : State) (g : GroupNo) (f : TrussGroup → TrussGroup) : (State.updateGroup s g f).halt = s.halt := by
  unfold State.updateGroup; (repeat' split) <;> rfl

@[simp] theorem updateGroup_requests (s : State) (g : GroupNo) (f : TrussGroup → TrussGroup) : (State.updateGroup s g f).requests = s.requests := by
  unfold State.updateGroup; (repeat' split) <;> rfl

@[simp] theorem updateGroup_report (s : State) (g : GroupNo) (f : TrussGroup → TrussGroup) : (State.updateGroup s g f).report = s.report := by
  unfold State.updateGroup; (repeat' split) <;> rfl

@[simp] theorem updateGroup_lines (s : State) (g : GroupNo) (f : TrussGroup → TrussGroup) : (State.updateGroup s g f).lines = s.lines := by
  unfold State.updateGroup; (repeat' split) <;> rfl

@[simp] theorem updateGroup_mem (s : State) (g : GroupNo) (f : TrussGroup → TrussGroup) : (State.updateGroup s g f).mem = s.mem := by
  unfold State.updateGroup; (repeat' split) <;> rfl

@[simp] theorem updateGroup_free (s : State) (g : GroupNo) (f : TrussGroup → TrussGroup) : (State.updateGroup s g f).free = s.free := by
  unfold State.updateGroup; (repeat' split) <;> rfl

@[simp] theorem updateGroup_pending (s : State) (g : GroupNo) (f : TrussGroup → TrussGroup) : (State.updateGroup s g f).pending = s.pending := by
  unfold State.updateGroup; (repeat' split) <;> rfl

/-! ### raise -/

@[simp] theorem raise_port (s : State) (r : FaultRecord) : (State.raise s r).port = s.port := by
  unfold State.raise; (repeat' split) <;> rfl

@[simp] theorem raise_memPort (s : State) (r : FaultRecord) : (State.raise s r).memPort = s.memPort := by
  unfold State.raise; (repeat' split) <;> rfl

@[simp] theorem raise_regions (s : State) (r : FaultRecord) : (State.raise s r).regions = s.regions := by
  unfold State.raise; (repeat' split) <;> rfl

@[simp] theorem raise_loader (s : State) (r : FaultRecord) : (State.raise s r).loader = s.loader := by
  unfold State.raise; (repeat' split) <;> rfl

@[simp] theorem raise_lock (s : State) (r : FaultRecord) : (State.raise s r).lock = s.lock := by
  unfold State.raise; (repeat' split) <;> rfl

@[simp] theorem raise_hoists (s : State) (r : FaultRecord) : (State.raise s r).hoists = s.hoists := by
  unfold State.raise; (repeat' split) <;> rfl

@[simp] theorem raise_confirmLimit (s : State) (r : FaultRecord) : (State.raise s r).confirmLimit = s.confirmLimit := by
  unfold State.raise; (repeat' split) <;> rfl

@[simp] theorem raise_idlePark (s : State) (r : FaultRecord) : (State.raise s r).idlePark = s.idlePark := by
  unfold State.raise; (repeat' split) <;> rfl

@[simp] theorem raise_groups (s : State) (r : FaultRecord) : (State.raise s r).groups = s.groups := by
  unfold State.raise; (repeat' split) <;> rfl

@[simp] theorem raise_goals (s : State) (r : FaultRecord) : (State.raise s r).goals = s.goals := by
  unfold State.raise; (repeat' split) <;> rfl

@[simp] theorem raise_grid (s : State) (r : FaultRecord) : (State.raise s r).grid = s.grid := by
  unfold State.raise; (repeat' split) <;> rfl

@[simp] theorem raise_pacer (s : State) (r : FaultRecord) : (State.raise s r).pacer = s.pacer := by
  unfold State.raise; (repeat' split) <;> rfl

@[simp] theorem raise_writer (s : State) (r : FaultRecord) : (State.raise s r).writer = s.writer := by
  unfold State.raise; (repeat' split) <;> rfl

@[simp] theorem raise_statusTimeout (s : State) (r : FaultRecord) : (State.raise s r).statusTimeout = s.statusTimeout := by
  unfold State.raise; (repeat' split) <;> rfl

@[simp] theorem raise_halt (s : State) (r : FaultRecord) : (State.raise s r).halt = s.halt := by
  unfold State.raise; (repeat' split) <;> rfl

@[simp] theorem raise_requests (s : State) (r : FaultRecord) : (State.raise s r).requests = s.requests := by
  unfold State.raise; (repeat' split) <;> rfl

@[simp] theorem raise_lines (s : State) (r : FaultRecord) : (State.raise s r).lines = s.lines := by
  unfold State.raise; (repeat' split) <;> rfl

@[simp] theorem raise_mem (s : State) (r : FaultRecord) : (State.raise s r).mem = s.mem := by
  unfold State.raise; (repeat' split) <;> rfl

@[simp] theorem raise_free (s : State) (r : FaultRecord) : (State.raise s r).free = s.free := by
  unfold State.raise; (repeat' split) <;> rfl

@[simp] theorem raise_pending (s : State) (r : FaultRecord) : (State.raise s r).pending = s.pending := by
  unfold State.raise; (repeat' split) <;> rfl

end Sys2Proof.Laws
end

