-- ==== Sys2Proof/Laws/Tables.lean ====
section
/-! SUPPORT. Reading the tables of the state after an update of them. -/

namespace Sys2Proof.Laws

open Sys2Proof.Machine

/-! ### One value for each master -/

@[simp] theorem perMid_get_set {α : Type} (t : PerMid α) (m k : Mid) (x : α) :
    (t.set m x).get k = if k = m then x else t.get k := by
  cases m <;> cases k <;> rfl

@[simp] theorem perMid_get_all {α : Type} (x : α) (m : Mid) : (PerMid.all x).get m = x := by
  cases m <;> rfl

/-! ### Hoists, groups and queues -/

theorem hoist_updateHoist (s : State) (slot k : Slot) (f : Hoist → Hoist) :
    (s.updateHoist slot f).hoist k = if k = slot then (s.hoist slot).map f else s.hoist k := by
  unfold State.updateHoist
  cases h : s.hoist slot with
  | none => by_cases e : k = slot <;> simp [e, h]
  | some r =>
    simp only [State.hoist, Fin.getElem_fin, Vector.getElem_set]
    by_cases e : k = slot
    · subst e; simp
    · have : slot.val ≠ k.val := fun hc => e (Fin.ext hc.symm)
      simp [e, this]

@[simp] theorem hoist_updateHoist_self (s : State) (slot : Slot) (f : Hoist → Hoist) :
    (s.updateHoist slot f).hoist slot = (s.hoist slot).map f := by
  simp [hoist_updateHoist]

theorem present_updateHoist (s : State) (slot k : Slot) (f : Hoist → Hoist) :
    (s.updateHoist slot f).present k = s.present k := by
  unfold State.present
  rw [hoist_updateHoist]
  split
  · subst_vars; simp
  · rfl

theorem group_updateGroup (s : State) (g k : GroupNo) (f : TrussGroup → TrussGroup) :
    (s.updateGroup g f).group k = if k = g then (s.group g).map f else s.group k := by
  unfold State.updateGroup
  cases h : s.group g with
  | none => by_cases e : k = g <;> simp [e, h]
  | some r =>
    simp only [State.group, Fin.getElem_fin, Vector.getElem_set]
    by_cases e : k = g
    · subst e; simp
    · have : g.val ≠ k.val := fun hc => e (Fin.ext hc.symm)
      simp [e, this]

theorem queue_updateQueue (s : State) (q k : QueueNo) (f : PacingQueue → PacingQueue) :
    (s.updateQueue q f).queue k = if k = q then f (s.queue q) else s.queue k := by
  simp only [State.updateQueue, State.queue, Fin.getElem_fin, Vector.getElem_set]
  by_cases e : k = q
  · subst e; simp
  · have : q.val ≠ k.val := fun hc => e (Fin.ext hc.symm)
    simp [e, this]

theorem statusCopy_updateStatus (s : State) (slot k : Slot) (f : StatusCopy → StatusCopy) :
    (s.updateStatus slot f).statusCopy k =
      if k = slot then f (s.statusCopy slot) else s.statusCopy k := by
  simp only [State.updateStatus, State.statusCopy, Fin.getElem_fin, Vector.getElem_set]
  by_cases e : k = slot
  · subst e; simp
  · have : slot.val ≠ k.val := fun hc => e (Fin.ext hc.symm)
    simp [e, this]

/-- The value of a counter. -/
theorem counters_count (s : State) (c : Counter) (k : Fin 32) :
    (s.count c).report.counters[k] =
      if k = counterIndex c then s.report.counters[k] + 1 else s.report.counters[k] := by
  simp only [State.count, Fin.getElem_fin, Vector.getElem_set]
  by_cases e : k = counterIndex c
  · subst e; simp
  · have : (counterIndex c).val ≠ k.val := fun hc => e (Fin.ext hc.symm)
    simp [e, this]

/-! ### Cause sets -/

@[simp] theorem causes_has_put (x : HoistCauses) (c k : HoistCause) (b : Bool) :
    (x.put c b).has k = if k = c then b else x.has k := by
  cases c <;> cases k <;> rfl

theorem causes_isEmpty_iff (x : HoistCauses) : x.isEmpty = true ↔ x = .empty := by
  simp [HoistCauses.isEmpty]

@[simp] theorem mem_allSlots (slot : Slot) : slot ∈ allSlots := List.mem_finRange slot

@[simp] theorem mem_allGroups (g : GroupNo) : g ∈ allGroups := List.mem_finRange g

@[simp] theorem mem_allQueues (q : QueueNo) : q ∈ allQueues := List.mem_finRange q

/-! ### Bytes of a word -/

/-- A whole-word merge is the word written. -/
@[simp] theorem mergeBytes_allBytes (old new : Word) : mergeBytes old new allBytes = new := by
  simp only [mergeBytes, allBytes, wordOf, byteOf]
  ext i hi
  simp only [BitVec.getElem_append]
  simp
  grind

end Sys2Proof.Laws
end

