-- ==== Sys2Proof/Laws/Keeps.lean ====
section
/-! SUPPORT. What each shared operation leaves unchanged, said once for each (`KeepsAllBut`). -/

namespace Sys2Proof.Laws

set_option Elab.async false

open Sys2Proof.Machine

/-! ### The algebra of frames -/

theorem samePart_refl (s : State) (p : Part) : samePart s s p := by
  cases p <;> simp [samePart]

theorem samePart_trans {s t u : State} {p : Part} (h : samePart s t p) (k : samePart t u p) :
    samePart s u p := by
  cases p <;> simp_all [samePart]

theorem keeps_refl (ch : List Part) (s : State) : KeepsAllBut ch s s :=
  ⟨fun p _ => samePart_refl s p⟩

theorem keeps_trans {ch : List Part} {s t u : State} (h : KeepsAllBut ch s t)
    (k : KeepsAllBut ch t u) : KeepsAllBut ch s u :=
  ⟨fun p hp => samePart_trans (h.same p hp) (k.same p hp)⟩

theorem keeps_mono {a b : List Part} {s t : State} (h : KeepsAllBut a s t) (hab : a ⊆ b) :
    KeepsAllBut b s t :=
  ⟨fun p hp => h.same p fun hc => hp (hab hc)⟩

/-- Two operations one after the other, within a common frame. -/
theorem keeps_seq {a b c : List Part} {s t u : State} (h : KeepsAllBut a s t)
    (k : KeepsAllBut b t u) (ha : a ⊆ c := by decide) (hb : b ⊆ c := by decide) :
    KeepsAllBut c s u :=
  keeps_trans (keeps_mono h ha) (keeps_mono k hb)

theorem keeps_forEach {α : Type} {ch : List Part} {f : α → State → State}
    (h : ∀ x s, KeepsAllBut ch s (f x s)) (xs : List α) (s : State) :
    KeepsAllBut ch s (forEach f xs s) := by
  induction xs generalizing s with
  | nil => exact keeps_refl ch s
  | cons x xs ih => exact keeps_trans (h x s) (ih (f x s))

/-! ### Tables, counters, the report queue, answers -/

theorem keeps_updateHoist (s : State) (slot : Slot) (f : Hoist → Hoist) :
    KeepsAllBut [.hoists] s (s.updateHoist slot f) := by
  refine ⟨fun p hp => ?_⟩; cases p <;> simp_all [samePart]

theorem keeps_updateGroup (s : State) (g : GroupNo) (f : TrussGroup → TrussGroup) :
    KeepsAllBut [.groups] s (s.updateGroup g f) := by
  refine ⟨fun p hp => ?_⟩; cases p <;> simp_all [samePart]

theorem keeps_updateQueue (s : State) (q : QueueNo) (f : PacingQueue → PacingQueue) :
    KeepsAllBut [.pacer] s (s.updateQueue q f) := by
  refine ⟨fun p hp => ?_⟩; cases p <;> simp_all [samePart]

theorem keeps_count (s : State) (c : Counter) : KeepsAllBut [.counters] s (s.count c) := by
  refine ⟨fun p hp => ?_⟩; cases p <;> simp_all [samePart, State.count]

theorem keeps_raise (s : State) (r : FaultRecord) : KeepsAllBut [.faultQueue] s (s.raise r) := by
  unfold State.raise
  refine ⟨fun p hp => ?_⟩
  split
  · split <;> cases p <;> simp_all [samePart]
  · exact samePart_refl s p

theorem keeps_notice (s : State) (c : NoticeCode) (x : Option Nat) (a b : Word) :
    KeepsAllBut [.faultQueue] s (s.notice c x a b) := keeps_raise s _

theorem keeps_queueMarker (s : State) : KeepsAllBut [.faultQueue] s s.queueMarker := by
  unfold State.queueMarker
  refine ⟨fun p hp => ?_⟩
  split
  · cases p <;> simp_all [samePart]
  · exact samePart_refl s p

theorem keeps_answer (s : State) (r : ResultCode) (d : Word) :
    KeepsAllBut [.requests] s (s.answer r d) := by
  refine ⟨fun p hp => ?_⟩; cases p <;> simp_all [samePart, State.answer]

theorem keeps_takeSnapshot (s : State) : KeepsAllBut [] s (takeSnapshot s) := by
  refine ⟨fun p hp => ?_⟩; cases p <;> simp_all [samePart, takeSnapshot]

theorem keeps_setPendingFrame (s : State) (b : Bool) :
    KeepsAllBut [.pacer] s (setPendingFrame b s) := by
  refine ⟨fun p hp => ?_⟩; cases p <;> simp_all [samePart, setPendingFrame]

theorem keeps_setGate (s : State) (g : GateMode) : KeepsAllBut [.loader] s (setGate g s) := by
  refine ⟨fun p hp => ?_⟩; cases p <;> simp_all [samePart, setGate]

/-! ### The power ladder -/

theorem keeps_tryRelease (s : State) (slot : Slot) :
    KeepsAllBut [.hoists] s (tryRelease slot s) := by
  unfold tryRelease
  split
  · exact keeps_refl _ s
  · split
    · exact keeps_updateHoist ..
    · exact keeps_refl _ s

theorem keeps_setRunDemand (slot : Slot) (s : State) :
    KeepsAllBut [.hoists] s (setRunDemand slot s) := by
  unfold setRunDemand
  split
  · exact keeps_refl _ s
  · split
    · exact keeps_refl _ s
    · exact keeps_updateHoist ..
    · exact keeps_seq (keeps_updateHoist ..) (keeps_tryRelease ..)
    · exact keeps_updateHoist ..
    · exact keeps_updateHoist ..

theorem keeps_clearRunDemand (slot : Slot) (s : State) :
    KeepsAllBut [.hoists] s (clearRunDemand slot s) := keeps_updateHoist ..

theorem keeps_standDown (slot : Slot) (s : State) :
    KeepsAllBut [.hoists] s (standDown slot s) := keeps_updateHoist ..

theorem keeps_removeGoal (slot : Slot) (s : State) :
    KeepsAllBut [.hoists] s (removeGoal slot s) := keeps_updateHoist ..

/-! ### Batches -/

theorem keeps_composeRecord (k : RecordKind) (n : Nat) (slot : Slot) (s : State) :
    KeepsAllBut [.hoists] s (composeRecord k n slot s).2 := by
  unfold composeRecord
  split
  · exact keeps_refl _ s
  · dsimp only
    split
    · exact keeps_seq (keeps_updateHoist ..) (keeps_tryRelease ..)
    · exact keeps_updateHoist ..

theorem keeps_composeRecords (k : RecordKind) (slots : List Slot) (s : State) :
    KeepsAllBut [.hoists] s (composeRecords k slots s).2 := by
  induction slots generalizing s with
  | nil => exact keeps_refl _ s
  | cons slot rest ih =>
    have h := keeps_composeRecord k 0 slot s
    simp only [composeRecords]
    split
    · rename_i s1 e; rw [e] at h; exact keeps_trans h (ih s1)
    · rename_i r s1 e; rw [e] at h; exact keeps_trans h (ih s1)

theorem keeps_numberBatch (rs : List SetpointRecord) (s : State) :
    KeepsAllBut [.pacer] s (numberBatch rs s).2 := by
  refine ⟨fun p hp => ?_⟩; cases p <;> simp_all [samePart, numberBatch]

/-- The state with another Release Writer. -/
theorem keeps_writer (s : State) (w : ReleaseWriter) :
    KeepsAllBut [.batches] s { s with writer := w } := by
  refine ⟨fun p hp => ?_⟩; cases p <;> simp_all [samePart]

theorem keeps_handBatch (b : Batch) (s : State) : KeepsAllBut [.batches] s (handBatch b s) :=
  keeps_writer ..

/-- The parts that composing and handing a batch changes. -/
theorem keeps_startBatch (k : RecordKind) (slots : List Slot) (s : State) :
    KeepsAllBut [.hoists, .pacer, .batches] s (startBatch k slots s) := by
  have h := keeps_composeRecords k slots s
  unfold startBatch
  split
  · rename_i s1 e; rw [e] at h; exact keeps_mono h (by decide)
  · rename_i rs s1 _ e; rw [e] at h
    exact keeps_seq (keeps_mono h (by decide : _ ⊆ [Part.hoists, .pacer, .batches]))
      (keeps_seq (c := [.hoists, .pacer, .batches]) (keeps_numberBatch rs s1)
        (keeps_handBatch ..)) (by decide) (by decide)

theorem keeps_holdDue (slots : List Slot) (s : State) :
    KeepsAllBut [.hoists, .pacer, .batches] s (holdDue slots s) := by
  unfold holdDue
  split
  · exact keeps_startBatch ..
  · exact keeps_mono (keeps_writer ..) (by decide)
  · exact keeps_mono (keeps_writer ..) (by decide)

theorem keeps_syncOwed (slots : List Slot) (s : State) :
    KeepsAllBut [.hoists, .pacer, .batches] s (syncOwed slots s) := by
  unfold syncOwed
  repeat' split
  all_goals first
    | exact keeps_refl _ s
    | exact keeps_startBatch ..
    | exact keeps_mono (keeps_writer ..) (by decide)

theorem keeps_syncAll (s : State) :
    KeepsAllBut [.hoists, .pacer, .batches] s (syncAll s) := by
  unfold syncAll
  exact keeps_seq (keeps_forEach (fun slot s => keeps_updateHoist s slot Hoist.syncTo) _ _)
    (keeps_syncOwed ..)

theorem keeps_resyncDiscarded (r : SetpointRecord) (s : State) :
    KeepsAllBut [.hoists] s (resyncDiscarded r s) := by
  unfold resyncDiscarded
  split
  · exact keeps_updateHoist ..
  · exact keeps_refl _ s

theorem keeps_haltBatch (s : State) :
    KeepsAllBut [.hoists, .pacer, .batches] s (haltBatch s) := by
  unfold haltBatch
  extract_lets resynced
  have h := keeps_trans (keeps_forEach keeps_resyncDiscarded s.writer.discarded s)
    (keeps_composeRecords .halt resynced.presentSlots resynced)
  split
  · rename_i s1 e; rw [e] at h; exact keeps_mono h (by decide)
  · rename_i rs s1 _ e; rw [e] at h
    have h2 : KeepsAllBut [.hoists, .pacer] s (numberBatch rs s1).2 :=
      keeps_seq h (keeps_numberBatch rs s1)
    dsimp only
    repeat' split
    all_goals exact keeps_seq h2 (keeps_writer ..)

theorem keeps_composeOwed (o : OwedBatch) (s : State) :
    KeepsAllBut [.hoists] s (composeOwed o s).2 := by
  cases o <;> exact keeps_composeRecords ..

theorem keeps_startOwed (l : List OwedBatch) (s : State) :
    KeepsAllBut [.hoists, .pacer, .batches] s (startOwed l s) := by
  induction l generalizing s with
  | nil => exact keeps_mono (keeps_writer ..) (by decide)
  | cons o rest ih =>
    have h := keeps_composeOwed o s
    simp only [startOwed]
    split
    · rename_i s1 e; rw [e] at h; exact keeps_trans (keeps_mono h (by decide)) (ih s1)
    · rename_i rs s1 _ e; rw [e] at h
      have h2 : KeepsAllBut [.hoists, .pacer] s (numberBatch rs s1).2 :=
        keeps_seq h (keeps_numberBatch rs s1)
      exact keeps_seq h2 (keeps_writer ..)

theorem keeps_nextBatch (s : State) :
    KeepsAllBut [.hoists, .pacer, .batches] s (nextBatch s) := by
  unfold nextBatch
  split
  · exact keeps_mono (keeps_writer ..) (by decide)
  · exact keeps_startOwed ..

/-! ### Movers and groups -/

theorem keeps_groupToIdle (m : Mover) (s : State) :
    KeepsAllBut [.groups] s (groupToIdle m s) := by
  unfold groupToIdle
  split
  · exact keeps_refl _ s
  · exact keeps_updateGroup ..

theorem keeps_groupToMoving (m : Mover) (s : State) :
    KeepsAllBut [.groups] s (groupToMoving m s) := by
  unfold groupToMoving
  split
  · exact keeps_refl _ s
  · exact keeps_updateGroup ..

/-- The state with another Pacer. -/
theorem keeps_pacer (s : State) (x : Pacer) : KeepsAllBut [.pacer] s { s with pacer := x } := by
  refine ⟨fun p hp => ?_⟩; cases p <;> simp_all [samePart]

theorem keeps_unlinkMover (m : Mover) (s : State) :
    KeepsAllBut [.pacer, .groups] s (unlinkMover m s) :=
  keeps_seq (keeps_pacer ..) (keeps_groupToIdle ..)

theorem keeps_linkMover (m : Mover) (s : State) :
    KeepsAllBut [.pacer, .groups, .hoists] s (linkMover m s) := by
  unfold linkMover
  exact keeps_seq (keeps_seq (c := [.pacer, .groups]) (keeps_updateQueue ..)
    (keeps_groupToMoving ..)) (keeps_forEach keeps_setRunDemand _ _)

theorem keeps_withdrawMover (m : Mover) (s : State) :
    KeepsAllBut [.pacer, .groups, .hoists] s (withdrawMover m s) :=
  keeps_seq (keeps_forEach keeps_removeGoal _ _) (keeps_unlinkMover ..)

theorem keeps_removeAllMotion (s : State) :
    KeepsAllBut [.pacer, .groups, .hoists] s (removeAllMotion s) :=
  keeps_seq (keeps_forEach keeps_removeGoal _ _) (keeps_forEach keeps_unlinkMover _ _)

theorem keeps_holdGroup (g : GroupNo) (s : State) :
    KeepsAllBut [.pacer, .groups, .hoists, .batches] s (holdGroup g s) := by
  unfold holdGroup
  exact keeps_seq
    (keeps_seq (c := [.pacer, .groups, .hoists])
      (keeps_seq (c := [.groups, .hoists]) (keeps_updateGroup ..)
        (keeps_trans (keeps_forEach keeps_standDown _ _) (keeps_forEach keeps_removeGoal _ _)))
      (keeps_unlinkMover ..))
    (keeps_holdDue ..)

theorem keeps_enterHeld (g : GroupNo) (s : State) :
    KeepsAllBut [.pacer, .groups, .hoists, .batches] s (enterHeld g s) := by
  unfold enterHeld
  split
  · exact keeps_holdGroup ..
  · exact keeps_mono (keeps_updateGroup ..) (by decide)

theorem keeps_addMemberFault (g : GroupNo) (slot : Slot) (s : State) :
    KeepsAllBut [.groups, .faultQueue] s (addMemberFault g slot s) := by
  unfold addMemberFault
  repeat' split
  all_goals first
    | exact keeps_refl _ s
    | exact keeps_seq (keeps_updateGroup ..) (keeps_raise ..)

/-- What a cause on a hoist may change beside its own record: its group, the movers, the batches
and the report queue. -/
theorem keeps_memberFaulted (g : GroupNo) (slot : Slot) (s : State) :
    KeepsAllBut [.pacer, .groups, .hoists, .batches, .faultQueue] s (memberFaulted g slot s) := by
  unfold memberFaulted
  repeat' split
  all_goals first
    | exact keeps_refl _ s
    | exact keeps_seq (keeps_addMemberFault ..) (keeps_updateGroup ..)
    | exact keeps_seq (keeps_addMemberFault ..) (keeps_enterHeld ..)

theorem keeps_restartHeldRetry (g : GroupNo) (s : State) :
    KeepsAllBut [.groups] s (restartHeldRetry g s) := keeps_updateGroup ..

theorem keeps_returnIfQuiet (g : GroupNo) (s : State) :
    KeepsAllBut [.groups] s (returnIfQuiet g s) := by
  unfold returnIfQuiet
  repeat' split
  all_goals first
    | exact keeps_refl _ s
    | exact keeps_updateGroup ..

theorem keeps_retryCount (g : GroupNo) (s : State) :
    KeepsAllBut [.groups] s (retryCount g s) := by
  unfold retryCount
  repeat' split
  all_goals first
    | exact keeps_refl _ s
    | exact keeps_trans (keeps_updateGroup ..) (keeps_returnIfQuiet ..)

theorem keeps_spreadFound (g : GroupNo) (spread tolerance : Nat) (s : State) :
    KeepsAllBut [.pacer, .groups, .hoists, .batches, .faultQueue] s
      (spreadFound g spread tolerance s) := by
  unfold spreadFound
  exact keeps_seq (keeps_seq (c := [.groups, .faultQueue]) (keeps_updateGroup ..)
    (keeps_raise ..)) (keeps_holdGroup ..)

theorem keeps_spreadCheck (g : GroupNo) (s : State) :
    KeepsAllBut [.pacer, .groups, .hoists, .batches, .faultQueue] s (spreadCheck g s) := by
  unfold spreadCheck
  dsimp only
  repeat' split
  · exact keeps_refl _ s
  · exact keeps_seq (keeps_updateGroup ..) (keeps_spreadFound ..)
  · exact keeps_mono (keeps_updateGroup ..) (by decide)
  · exact keeps_refl _ s

/-! ### The halt -/

theorem keeps_haltEffects (s : State) :
    KeepsAllBut [.pacer, .groups, .hoists, .batches] s (haltEffects s) := by
  unfold haltEffects
  exact keeps_seq (keeps_seq (c := [.pacer, .groups, .hoists])
    (keeps_forEach keeps_standDown _ _) (keeps_removeAllMotion ..)) (keeps_haltBatch ..)

/-- The state with another Halt Controller. -/
theorem keeps_halt (s : State) (x : HaltController) :
    KeepsAllBut [.halt] s { s with halt := x } := by
  refine ⟨fun p hp => ?_⟩; cases p <;> simp_all [samePart]

theorem keeps_haltCause (c : HaltCause) (x : Option Nat) (a b : Word) (s : State) :
    KeepsAllBut [.halt, .faultQueue, .pacer, .groups, .hoists, .batches] s
      (haltCause c x a b s) := by
  unfold haltCause
  extract_lets record halt0 latched
  have k : KeepsAllBut [.halt, .faultQueue] s latched := keeps_seq (keeps_halt ..) (keeps_raise ..)
  split
  · split
    · exact keeps_refl _ s
    · exact keeps_seq (keeps_halt ..) (keeps_raise ..)
  · split
    · exact keeps_seq k (keeps_haltEffects ..)
    · exact keeps_mono k (by decide)

/-! ### Supervision -/

theorem keeps_addCause (slot : Slot) (c : HoistCause) (a b : Word) (s : State) :
    KeepsAllBut [.hoists, .faultQueue] s (addCause slot c a b s) := by
  unfold addCause
  repeat' split
  all_goals first
    | exact keeps_refl _ s
    | exact keeps_seq (keeps_updateHoist ..) (keeps_raise ..)

theorem keeps_firstCause (slot : Slot) (s : State) :
    KeepsAllBut [.pacer, .groups, .hoists, .batches, .faultQueue] s (firstCause slot s) := by
  unfold firstCause
  split
  · exact keeps_refl _ s
  · rename_i h _
    have hd : KeepsAllBut [.hoists] s
        (removeGoal slot (s.updateHoist slot (·.powerDown s.confirmFrames))) :=
      keeps_trans (keeps_updateHoist ..) (keeps_removeGoal ..)
    dsimp only
    repeat' split
    · exact keeps_seq hd (keeps_holdDue ..)
    · exact keeps_seq
        (keeps_seq (c := [.pacer, .hoists, .batches]) hd (keeps_holdDue ..))
        (keeps_memberFaulted ..)
    · exact keeps_seq hd (keeps_memberFaulted ..)

theorem keeps_furtherCause (slot : Slot) (s : State) :
    KeepsAllBut [.groups, .hoists] s (furtherCause slot s) := by
  unfold furtherCause
  dsimp only
  split
  · exact keeps_refl _ s
  · split
    · exact keeps_mono (keeps_updateHoist ..) (by decide)
    · exact keeps_seq (keeps_updateHoist ..) (keeps_restartHeldRetry ..)

theorem keeps_causeEffects (b : Bool) (slot : Slot) (s : State) :
    KeepsAllBut [.pacer, .groups, .hoists, .batches, .faultQueue] s (causeEffects b slot s) := by
  unfold causeEffects
  split
  · exact keeps_firstCause ..
  · exact keeps_mono (keeps_furtherCause ..) (by decide)

theorem keeps_checkHoist (slot : Slot) (h : Hoist) (s : State) :
    KeepsAllBut [.pacer, .groups, .hoists, .batches, .faultQueue] s (checkHoist slot h s) := by
  unfold checkHoist offOnMismatch
  have k : KeepsAllBut [.hoists, .faultQueue] s _ :=
    keeps_seq (keeps_forEach (fun c s => keeps_addCause slot c (h.checkValues c).1
      (h.checkValues c).2 s) h.newCauses s) (keeps_updateHoist (slot := slot)
      (f := fun h => if h.mismatch ∧ h.reported = some .off then h.fallToOff else h) ..)
  dsimp only
  split
  · exact keeps_mono k (by decide)
  · exact keeps_seq k (keeps_causeEffects ..)

theorem keeps_confirmStep (slot : Slot) (s : State) :
    KeepsAllBut [.hoists] s (confirmStep slot s) := by
  unfold confirmStep
  repeat' split
  all_goals first
    | exact keeps_refl _ s
    | exact keeps_trans (keeps_updateHoist ..) (keeps_tryRelease ..)
    | exact keeps_updateHoist ..

theorem keeps_withGroup {ch : List Part} {f : GroupNo → State → State}
    (hf : ∀ g s, KeepsAllBut ch s (f g s)) (slot : Slot) (s : State) :
    KeepsAllBut ch s (withGroup slot f s) := by
  unfold withGroup
  repeat' split
  all_goals first
    | exact keeps_refl _ s
    | exact hf ..

theorem keeps_returnAfterSelfClear (b : Bool) (slot : Slot) (s : State) :
    KeepsAllBut [.groups] s (returnAfterSelfClear b slot s) := by
  unfold returnAfterSelfClear
  split
  · exact keeps_withGroup keeps_returnIfQuiet ..
  · exact keeps_refl _ s

theorem keeps_takeReport (slot : Slot) (w : Vector Word 4) (d : Drive) (s : State) :
    KeepsAllBut [.hoists] s (takeReport slot w d s) :=
  keeps_trans (keeps_updateHoist ..) (keeps_updateHoist ..)

/-- What a taken arrival in GUARD may change (R135). -/
theorem keeps_takenInGuard (slot : Slot) (w : Vector Word 4) (d : Drive) (s : State) :
    KeepsAllBut [.pacer, .groups, .hoists, .batches, .faultQueue] s (takenInGuard slot w d s) := by
  unfold takenInGuard
  dsimp only
  split
  · exact keeps_mono (keeps_takeReport ..) (by decide)
  · exact keeps_seq (keeps_takeReport ..)
      (keeps_seq (c := [.pacer, .groups, .hoists, .batches, .faultQueue])
        (keeps_seq (c := [.pacer, .groups, .hoists, .batches, .faultQueue])
          (keeps_checkHoist ..)
          (keeps_seq (c := [.pacer, .groups, .hoists, .batches, .faultQueue])
            (keeps_confirmStep ..) (keeps_withGroup keeps_spreadCheck ..)))
        (keeps_returnAfterSelfClear ..))

theorem keeps_overloadInBypass (slot : Slot) (h : Hoist) (s : State) :
    KeepsAllBut [.halt, .faultQueue, .pacer, .groups, .hoists, .batches] s
      (overloadInBypass slot h s) := by
  unfold overloadInBypass
  dsimp only
  have ha : KeepsAllBut [.hoists, .faultQueue] s (addCause slot .overload
    (h.checkValues .overload).1 (h.checkValues .overload).2 s) := keeps_addCause ..
  refine keeps_seq (a := [.pacer, .groups, .hoists, .batches, .faultQueue]) ?_
    (keeps_haltCause ..)
  split
  · exact keeps_seq ha (keeps_withGroup (fun g s => keeps_memberFaulted g slot s) ..)
  · split
    · exact keeps_mono ha (by decide)
    · exact keeps_seq ha (keeps_withGroup keeps_restartHeldRetry ..)

/-- What a taken arrival in BYPASS may change (R145). -/
theorem keeps_takenInBypass (slot : Slot) (w : Vector Word 4) (d : Drive) (s : State) :
    KeepsAllBut [.halt, .faultQueue, .pacer, .groups, .hoists, .batches] s
      (takenInBypass slot w d s) := by
  unfold takenInBypass
  dsimp only
  split
  · exact keeps_mono (keeps_takeReport ..) (by decide)
  · refine keeps_seq (keeps_takeReport slot w d s) (keeps_seq
      (c := [.halt, .faultQueue, .pacer, .groups, .hoists, .batches])
      (b := [.groups]) (a := [.halt, .faultQueue, .pacer, .groups, .hoists, .batches])
      (t := if _ then _ else _) ?_ (keeps_returnAfterSelfClear ..))
    split
    · exact keeps_overloadInBypass ..
    · exact keeps_refl ..

theorem keeps_takeArrival (slot : Slot) (w : Vector Word 4) (d : Drive) (s : State) :
    KeepsAllBut [.halt, .faultQueue, .pacer, .groups, .hoists, .batches] s
      (takeArrival slot w d s) := by
  unfold takeArrival
  split
  · exact keeps_mono (keeps_takenInGuard ..) (by decide)
  · exact keeps_takenInBypass ..

/-- What the decision of an arrival may change (R133). -/
theorem keeps_decideArrival (slot : Slot) (s : State) :
    KeepsAllBut [.halt, .faultQueue, .pacer, .groups, .hoists, .batches, .counters] s
      (decideArrival slot s) := by
  unfold decideArrival refuseArrival
  dsimp only
  repeat' split
  all_goals first
    | exact keeps_refl _ s
    | exact keeps_seq (keeps_count ..) (keeps_notice ..)
    | exact keeps_mono (keeps_count ..) (by decide)
    | exact keeps_seq (keeps_count ..) (keeps_takeArrival ..)

theorem keeps_updateStatus (s : State) (slot : Slot) (f : StatusCopy → StatusCopy) :
    KeepsAllBut [.statusCopies] s (s.updateStatus slot f) := by
  refine ⟨fun p hp => ?_⟩; cases p <;> simp_all [samePart, State.updateStatus]

/-- What the counts of one hoist at a FRAME arrival may change (R51, R138). -/
theorem keeps_ladderCount (slot : Slot) (s : State) :
    KeepsAllBut [.pacer, .groups, .hoists, .batches, .faultQueue] s (ladderCount slot s) := by
  unfold ladderCount confirmTimedOut
  dsimp only
  split
  · exact keeps_refl _ s
  · split
    · split
      · exact keeps_mono (keeps_updateHoist ..) (by decide)
      · split
        · exact keeps_mono (keeps_updateHoist ..) (by decide)
        · split
          · exact keeps_refl _ s
          · split
            · exact keeps_seq (keeps_addCause ..) (keeps_updateHoist ..)
            · exact keeps_seq (keeps_seq (c := [.hoists, .faultQueue]) (keeps_addCause ..)
                (keeps_updateHoist ..)) (keeps_causeEffects ..)
    · exact keeps_refl _ s

theorem keeps_parkTest (slot : Slot) (s : State) :
    KeepsAllBut [.hoists] s (parkTest slot s) := by
  unfold parkTest
  repeat' split
  all_goals first
    | exact keeps_refl _ s
    | exact keeps_updateHoist ..

theorem keeps_ageCount (slot : Slot) (s : State) :
    KeepsAllBut [.pacer, .groups, .hoists, .batches, .faultQueue] s (ageCount slot s) := by
  unfold ageCount statusTimedOut
  repeat' split
  all_goals first
    | exact keeps_refl _ s
    | exact keeps_mono (keeps_updateHoist ..) (by decide)
    | exact keeps_seq (keeps_addCause ..) (keeps_causeEffects ..)

theorem keeps_hoistFrame (slot : Slot) (s : State) :
    KeepsAllBut [.pacer, .groups, .hoists, .batches, .faultQueue] s (hoistFrame slot s) := by
  unfold hoistFrame settleCount sinceCount
  exact keeps_seq
    (keeps_seq (c := [.pacer, .groups, .hoists, .batches, .faultQueue])
      (keeps_seq (c := [.pacer, .groups, .hoists, .batches, .faultQueue])
        (keeps_seq (c := [.pacer, .groups, .hoists, .batches, .faultQueue])
          (keeps_updateHoist ..) (keeps_ladderCount ..)) (keeps_updateHoist ..))
      (keeps_parkTest ..)) (keeps_ageCount ..)

theorem keeps_clearHoist (slot : Slot) (s : State) :
    KeepsAllBut [.groups, .hoists, .requests] s (clearHoist slot s) := by
  unfold clearHoist
  dsimp only
  split
  · exact keeps_refl _ s
  · split
    · split
      · exact keeps_seq (keeps_updateHoist ..) (keeps_answer ..)
      · exact keeps_seq (keeps_seq (c := [.groups, .hoists]) (keeps_updateHoist ..)
          (keeps_withGroup keeps_returnIfQuiet ..)) (keeps_answer ..)
    · exact keeps_seq (keeps_updateHoist ..) (keeps_answer ..)

theorem keeps_clearGroup (g : GroupNo) (s : State) :
    KeepsAllBut [.groups, .requests] s (clearGroup g s) := by
  unfold clearGroup
  repeat' split
  all_goals first
    | exact keeps_refl _ s
    | exact keeps_mono (keeps_answer ..) (by decide)
    | exact keeps_seq (keeps_updateGroup ..) (keeps_answer ..)

/-! ### The Pacer -/

theorem keeps_paceHoist (q : QueueNo) (n : Nat) (slot : Slot) (s : State) :
    KeepsAllBut [.hoists, .counters] s (paceHoist q n slot s).2 := by
  unfold paceHoist
  split
  · exact keeps_refl _ s
  · exact keeps_seq (keeps_seq (c := [.hoists]) (keeps_updateHoist ..) (keeps_composeRecord ..))
      (keeps_count ..)

theorem keeps_paceHoists (q : QueueNo) (n : Nat) (slots : List Slot) (s : State) :
    KeepsAllBut [.hoists, .counters] s (paceHoists q n slots s).2 := by
  induction slots generalizing s with
  | nil => exact keeps_refl _ s
  | cons slot rest ih => exact keeps_trans (keeps_paceHoist q n slot s) (ih _)

theorem keeps_walk (q : QueueNo) (ms : List Mover) (w : Walk) :
    KeepsAllBut [.hoists, .counters] w.service.state (walk q ms w).service.state := by
  induction ms generalizing w with
  | nil => exact keeps_refl _ _
  | cons m rest ih =>
    simp only [walk]
    split
    · exact ih ⟨w.service, w.marked ++ [m], w.stop⟩
    · split
      · exact ih w
      · split
        · exact keeps_refl _ _
        · exact keeps_trans (keeps_paceHoists ..) (ih (stepMover q m w))

theorem keeps_setNextStart (bank : Bank) (i : Fin 4) (s : State) :
    KeepsAllBut [.pacer] s (setNextStart bank i s) := by
  cases bank <;> exact keeps_pacer ..

theorem keeps_grantService (bank : Bank) (i : Fin 4) (s : State) :
    KeepsAllBut [.pacer, .counters] s (grantService bank i s) := by
  unfold grantService
  exact keeps_seq (keeps_seq (c := [.pacer, .counters]) (keeps_updateQueue ..) (keeps_count ..))
    (keeps_setNextStart ..)

theorem keeps_serveQueue (bank : Bank) (v : Service) (i : Fin 4) :
    KeepsAllBut [.pacer, .groups, .hoists, .counters] v.state (serveQueue bank v i).state := by
  have k := keeps_walk (bank.queue i) (v.state.queue (bank.queue i)).walkFrom ⟨v, [], none⟩
  unfold serveQueue endWalk
  dsimp only at k ⊢
  split
  · exact keeps_refl _ _
  · split
    · exact keeps_seq k (keeps_seq (c := [.pacer, .groups, .counters])
        (keeps_grantService ..) (keeps_forEach keeps_unlinkMover _ _))
    · exact keeps_seq k (keeps_seq (c := [.pacer, .groups])
        (keeps_updateQueue ..) (keeps_forEach keeps_unlinkMover _ _))

theorem keeps_foldServe (bank : Bank) (is : List (Fin 4)) (v : Service) :
    KeepsAllBut [.pacer, .groups, .hoists, .counters] v.state
      (is.foldl (serveQueue bank) v).state := by
  induction is generalizing v with
  | nil => exact keeps_refl _ _
  | cons i is ih => exact keeps_trans (keeps_serveQueue bank v i) (ih _)

theorem keeps_serveBank (bank : Bank) (v : Service) :
    KeepsAllBut [.pacer, .groups, .hoists, .counters] v.state (serveBank bank v).state := by
  unfold serveBank
  dsimp only
  refine keeps_trans ?_ (keeps_foldServe ..)
  split
  · exact keeps_refl _ _
  · exact keeps_serveQueue ..

theorem keeps_raiseRate (q : QueueNo) (s : State) :
    KeepsAllBut [.pacer, .counters] s (raiseRate q s) := by
  unfold raiseRate
  dsimp only
  repeat' split
  all_goals first
    | exact keeps_mono (keeps_updateQueue ..) (by decide)
    | exact keeps_seq (keeps_updateQueue ..) (keeps_count ..)

theorem keeps_pacingBatch (paced : List SetpointRecord) (s : State) :
    KeepsAllBut [.hoists, .pacer, .batches] s (pacingBatch paced s) := by
  have h := keeps_composeRecords .state (s.stateSlots paced) s
  unfold pacingBatch
  dsimp only
  split
  · exact keeps_mono h (by decide)
  · exact keeps_seq (keeps_seq (c := [.hoists, .pacer]) h (keeps_numberBatch ..))
      (keeps_handBatch ..)

theorem keeps_serveFrame (s : State) :
    KeepsAllBut [.pacer, .groups, .hoists, .counters] s (serveFrame s).state :=
  keeps_trans (keeps_serveBank .a ⟨s, s.pacer.budget.getD 0, [], false⟩) (keeps_serveBank .b _)

theorem keeps_noteExhaustion (s : State) : KeepsAllBut [.counters] s (noteExhaustion s) := by
  unfold noteExhaustion
  split
  · exact keeps_count ..
  · exact keeps_refl _ s

/-- What taking a frame may change (R112). -/
theorem keeps_takeFrame (s : State) :
    KeepsAllBut [.pacer, .groups, .hoists, .batches, .counters] s (takeFrame s) := by
  unfold takeFrame
  exact keeps_seq (keeps_seq (c := [.pacer, .groups, .hoists, .counters])
    (keeps_seq (c := [.pacer, .groups, .hoists, .counters])
      (keeps_forEach (ch := [.pacer, .counters]) keeps_raiseRate allQueues s)
      (keeps_serveFrame _)) (keeps_noteExhaustion _)) (keeps_pacingBatch ..)

theorem keeps_offerFrame (s : State) :
    KeepsAllBut [.pacer, .groups, .hoists, .batches, .counters] s (offerFrame s) := by
  unfold offerFrame
  split
  · exact keeps_refl _ s
  · split
    · exact keeps_seq (keeps_setPendingFrame ..) (keeps_takeFrame ..)
    all_goals
      split
      · exact keeps_mono (keeps_count ..) (by decide)
      · exact keeps_mono (keeps_setPendingFrame ..) (by decide)

theorem keeps_takePending (s : State) :
    KeepsAllBut [.pacer, .groups, .hoists, .batches, .counters] s (takePending s) := by
  unfold takePending
  split
  · exact keeps_seq (keeps_setPendingFrame ..) (keeps_takeFrame ..)
  · exact keeps_refl _ s

/-! ### Goals -/

theorem keeps_setActiveGoal (slot : Slot) (goal : Nat) (s : State) :
    KeepsAllBut [.pacer, .groups, .hoists] s (setActiveGoal slot goal s) := by
  unfold setActiveGoal
  dsimp only
  repeat' split
  all_goals first
    | exact keeps_refl _ s
    | exact keeps_mono (keeps_removeGoal ..) (by decide)
    | exact keeps_seq (keeps_updateHoist ..) (keeps_setRunDemand ..)
    | exact keeps_mono (keeps_updateHoist ..) (by decide)
    | exact keeps_seq (keeps_updateHoist ..) (keeps_linkMover ..)

theorem keeps_refuseGoal (c : NoticeCode) (slot : Slot) (g b : Word) (s : State) :
    KeepsAllBut [.counters, .faultQueue] s (refuseGoal c slot g b s) :=
  keeps_seq (keeps_count ..) (keeps_notice ..)

/-- The state with another Goal Intake. -/
theorem keeps_goals (s : State) (x : GoalIntake) : KeepsAllBut [.goals] s { s with goals := x } := by
  refine ⟨fun p hp => ?_⟩; cases p <;> simp_all [samePart]

theorem keeps_promote (e : StagingEntry) (n : Nat) (s : State) :
    KeepsAllBut [.pacer, .groups, .hoists, .counters, .faultQueue] s (promote e n s).2 := by
  unfold promote
  repeat' split
  all_goals first
    | exact keeps_mono (keeps_refuseGoal ..) (by decide)
    | exact keeps_mono (keeps_setActiveGoal ..) (by decide)

theorem keeps_promoteAll (es : List StagingEntry) (n : Nat) (s : State) :
    KeepsAllBut [.pacer, .groups, .hoists, .counters, .faultQueue] s (promoteAll es n s).2 := by
  induction es generalizing n s with
  | nil => exact keeps_refl _ s
  | cons e rest ih => exact keeps_trans (keeps_promote e n s) (ih ..)

theorem keeps_powerHoist (l : PowerLevel) (slot : Slot) (s : State) :
    KeepsAllBut [.hoists] s (powerHoist l slot s).2 := by
  unfold powerHoist
  repeat' split
  all_goals first
    | exact keeps_refl _ s
    | exact keeps_updateHoist ..
    | exact keeps_clearRunDemand ..
    | exact keeps_setRunDemand ..

theorem keeps_powerHoists (l : PowerLevel) (slots : List Slot) (n : Nat) (s : State) :
    KeepsAllBut [.hoists] s (powerHoists l slots n s).2 := by
  induction slots generalizing n s with
  | nil => exact keeps_refl _ s
  | cons slot rest ih => exact keeps_trans (keeps_powerHoist l slot s) (ih ..)

theorem keeps_applyPower (l : PowerLevel) (slots : List Slot) (s : State) :
    KeepsAllBut [.pacer, .groups, .hoists, .requests] s (applyPower l slots s) := by
  unfold applyPower
  cases l <;> dsimp only
  · exact keeps_seq (keeps_seq (c := [.pacer, .groups, .hoists])
      (keeps_forEach keeps_withdrawMover _ _) (keeps_powerHoists ..)) (keeps_answer ..)
  · exact keeps_seq (keeps_seq (c := [.pacer, .groups, .hoists])
      (keeps_forEach keeps_withdrawMover _ _) (keeps_powerHoists ..)) (keeps_answer ..)
  · exact keeps_seq (keeps_powerHoists ..) (keeps_answer ..)

/-! ### The port -/

theorem keeps_enterWaiting (a : Access) (b : Bool) (s : State) :
    KeepsAllBut [] s (enterWaiting a b s) := by
  refine ⟨fun p hp => ?_⟩; cases p <;> simp [samePart, enterWaiting]

theorem keeps_emptyPlace (m : Mid) (s : State) : KeepsAllBut [] s (emptyPlace m s) := by
  refine ⟨fun p hp => ?_⟩; cases p <;> simp [samePart, emptyPlace]

theorem keeps_returnData (m : Mid) (w : Word) (s : State) :
    KeepsAllBut [.readData] s (returnData m w s) := by
  refine ⟨fun p hp => ?_⟩; cases p <;> simp_all [samePart, returnData]

theorem keeps_setBus (m : Mid) (l : List Access) (s : State) :
    KeepsAllBut [.bus] s (setBus m l s) := by
  refine ⟨fun p hp => ?_⟩; cases p <;> simp_all [samePart, setBus]

theorem keeps_noteDrop (a : Access) (n : Option (NoticeCode × Option Nat)) (s : State) :
    KeepsAllBut [.faultQueue] s (noteDrop a n s) := by
  unfold noteDrop
  split
  · exact keeps_refl _ s
  · exact keeps_notice ..

theorem keeps_reclassify (m : Mid) (b : Bool) (s : State) :
    KeepsAllBut [.faultQueue, .readData] s (reclassify m b s) := by
  unfold reclassify
  repeat' split
  all_goals first
    | exact keeps_refl _ s
    | exact keeps_mono (keeps_enterWaiting ..) (by decide)
    | exact keeps_seq (keeps_emptyPlace ..) (keeps_noteDrop ..)
    | exact keeps_seq (keeps_emptyPlace ..) (keeps_returnData ..)

theorem keeps_writerIdle (s : State) :
    KeepsAllBut [.pacer, .groups, .hoists, .batches, .counters, .faultQueue, .readData] s
      (writerIdle s) :=
  keeps_seq (keeps_reclassify ..) (keeps_takePending ..)

/-- What the end of a batch may change (R124). -/
theorem keeps_batchWritten (b : Bool) (s : State) :
    KeepsAllBut [.pacer, .groups, .hoists, .batches, .counters, .faultQueue, .readData] s
      (batchWritten b s) := by
  have h : KeepsAllBut [.hoists, .pacer, .batches, .counters] s
      (nextBatch (if b then s else s.count .batchesWritten)) := by
    refine keeps_seq (a := [.counters]) ?_ (keeps_nextBatch ..)
    split
    · exact keeps_refl ..
    · exact keeps_count ..
  unfold batchWritten
  dsimp only
  split
  · exact keeps_seq h (keeps_writerIdle ..)
  · exact keeps_mono h (by decide)
  · exact keeps_mono h (by decide)

theorem keeps_releaseWordDone (s : State) :
    KeepsAllBut [.pacer, .groups, .hoists, .batches, .counters, .faultQueue, .readData] s
      (releaseWordDone s) := by
  unfold releaseWordDone
  dsimp only
  repeat' split
  all_goals first
    | exact keeps_refl _ s
    | exact keeps_batchWritten ..
    | exact keeps_mono (keeps_writer ..) (by decide)

/-! ### The end of every event -/

theorem keeps_markChanges (before s : State) : KeepsAllBut [] s (markChanges before s) := by
  refine ⟨fun p hp => ?_⟩; cases p <;> simp [samePart, markChanges]

theorem keeps_driveLines (s : State) : KeepsAllBut [] s (driveLines s) := by
  refine ⟨fun p hp => ?_⟩; cases p <;> simp [samePart, driveLines]

theorem keeps_drawAwaited (s : State) : KeepsAllBut [.requests] s (drawAwaited s) := by
  unfold drawAwaited
  refine ⟨fun p hp => ?_⟩
  split
  · cases p <;> simp_all [samePart]
  all_goals exact samePart_refl s p

theorem keeps_claimSnapshot (s : State) : KeepsAllBut [] s (claimSnapshot s) := by
  unfold claimSnapshot
  dsimp only
  refine ⟨fun p hp => ?_⟩
  split
  · exact samePart_refl s p
  · cases p <;> simp [samePart]
  · cases p <;> simp [samePart]

theorem keeps_claimReport (s : State) : KeepsAllBut [] s (claimReport s) := by
  unfold claimReport chooseReport claimMirrorOrSnapshot
  repeat' split
  all_goals first
    | exact keeps_refl _ s
    | exact keeps_claimSnapshot s
    | (refine ⟨fun p hp => ?_⟩; cases p <;> simp [samePart, claimMirror, beginRecord])

theorem keeps_holdSetpointRead (s : State) : KeepsAllBut [] s (holdSetpointRead s) := by
  unfold holdSetpointRead
  refine ⟨fun p hp => ?_⟩
  split
  · exact samePart_refl s p
  · cases p <;> simp [samePart]

/-- A grant of a word changes none of what a batch holds. -/
theorem keeps_granted (s : State) :
    KeepsAllBut [] s { s with writer := { s.writer with
      state := .writing
      hand := s.writer.hand.map fun h => { h with granted := h.granted + 1 } } } := by
  refine ⟨fun p hp => ?_⟩
  cases p <;> simp [samePart, Option.map_map]
  cases s.writer.hand <;> rfl

theorem keeps_releaseGranted (s : State) : KeepsAllBut [] s (releaseGranted s) := by
  unfold releaseGranted
  dsimp only
  refine keeps_trans ?_ (keeps_granted _)
  split
  · exact keeps_holdSetpointRead s
  · exact keeps_refl _ s
  · exact keeps_refl _ s

theorem keeps_startOp (c : Claimant) (a : Addr) (o : AccessOp) (g : Grant) (s : State) :
    KeepsAllBut [] s (startOp c a o g s) := by
  refine ⟨fun p hp => ?_⟩; cases p <;> simp [samePart, startOp]

theorem keeps_grantInternal (c : Claimant) (a : Addr) (o : AccessOp) (s : State) :
    KeepsAllBut [] s (grantInternal c a o s) := by
  unfold grantInternal
  dsimp only
  split
  · exact keeps_trans (keeps_startOp ..) (keeps_releaseGranted ..)
  all_goals exact keeps_startOp ..

theorem keeps_grantPass (m : Mid) (rest : List Mid) (s : State) :
    KeepsAllBut [] s (grantPass m rest s) := by
  unfold grantPass
  dsimp only
  refine ⟨fun p hp => ?_⟩
  split <;> cases p <;> simp [samePart, startOp]

theorem keeps_grantPort (s : State) : KeepsAllBut [] s (grantPort s) := by
  unfold grantPort
  repeat' split
  all_goals first
    | exact keeps_refl _ s
    | exact keeps_grantPass ..
    | exact keeps_grantInternal ..

/-- The end of an event changes nothing but the request state of a result handed at it. -/
theorem keeps_endOfEvent (before s : State) :
    KeepsAllBut [.requests] s (endOfEvent before s) := by
  unfold endOfEvent
  split
  · exact keeps_mono (keeps_driveLines s) (by decide)
  · exact keeps_seq (a := []) (keeps_markChanges before s) (keeps_seq (c := [.requests])
      (keeps_drawAwaited _) (keeps_seq (c := [.requests]) (a := []) (keeps_claimReport _)
        (keeps_seq (a := []) (b := []) (c := []) (keeps_grantPort _) (keeps_driveLines _))))

end Sys2Proof.Laws
end

