-- ==== Sys2Proof/Laws/Event.lean ====
section
/-! SUPPORT. What the end of an event does, and what a taken request event comes to, said once. -/

namespace Sys2Proof.Laws

set_option Elab.async false

open Sys2Proof.Machine

/-! ### Lines -/

theorem linesShow_driveLines (s : State) : LinesShow (driveLines s) := by
  refine ⟨rfl, rfl, fun m => ?_⟩
  cases m <;> rfl

/-- The output lines show their conditions after every event (R21, R155, R156). -/
theorem linesShow_endOfEvent (before s : State) : LinesShow (endOfEvent before s) := by
  unfold endOfEvent
  split <;> exact linesShow_driveLines _

/-! ### The value of a part-owned word -/

/-- The part-owned words read the gate, lock, halt, Pacer, report, goals and requests alone. -/
theorem mirror_congr {s t : State} (hr : t.requests.result = s.requests.result)
    (hd : t.requests.detail = s.requests.detail)
    (hs : requestStateCode t.requests.state = requestStateCode s.requests.state)
    (h : KeepsAllBut [.requests] s t) (i : Fin 16) : t.mirror i = s.mirror i := by
  have e1 : t.loader = s.loader := h.same .loader (by decide)
  have e2 : t.lock = s.lock := h.same .lock (by decide)
  have e3 : t.halt = s.halt := h.same .halt (by decide)
  have e4 : t.pacer = s.pacer := h.same .pacer (by decide)
  have e5 : t.goals = s.goals := h.same .goals (by decide)
  have e6 : t.report.frameCount = s.report.frameCount := h.same .frameCount (by decide)
  have e7 := h.same .ring (by decide)
  simp only [samePart] at e7
  have e8 : t.linkedMoverCount = s.linkedMoverCount := by simp [State.linkedMoverCount, e4]
  unfold State.mirror
  rw [hr, hd, hs, e1, e2, e3, e4, e5, e6, e7.2.1, e7.2.2, e8]

/-! ### The request state across the end of an event -/

theorem requests_claimReport (s : State) : (claimReport s).requests = s.requests := by
  have h := (keeps_claimReport s).same .requests (by decide)
  exact h

theorem requests_grantPort (s : State) : (grantPort s).requests = s.requests := by
  have h := (keeps_grantPort s).same .requests (by decide)
  exact h

/-- With no result handed at it, the end of an event leaves the request state. -/
theorem requests_endOfEvent {before s : State} (h : ∀ r, s.requests.state ≠ .answered r) :
    (endOfEvent before s).requests = s.requests := by
  unfold endOfEvent
  split
  · rfl
  · have hd : (drawAwaited (markChanges before s)).requests = s.requests := by
      have hm : (markChanges before s).requests = s.requests := rfl
      unfold drawAwaited
      rw [hm]
      split
      · rename_i r hr; exact absurd hr (h r)
      all_goals exact hm
    show (grantPort _).requests = _
    rw [requests_grantPort, requests_claimReport, hd]

/-- So such an event keeps every part that its own effect keeps. -/
theorem keeps_event {ch : List Part} {before m : State} (h : KeepsAllBut ch before m)
    (hm : ∀ r, m.requests.state ≠ .answered r) : KeepsAllBut ch before (endOfEvent before m) := by
  refine ⟨fun p hp => samePart_trans (h.same p hp) ?_⟩
  by_cases e : p = .requests
  · subst e; exact requests_endOfEvent hm
  · exact (keeps_endOfEvent before m).same p (by simp [e])

/-- A result handed at an event: the request waits for the writes that R166 lays down, and the
result words stand. -/
theorem closes_endOfEvent {before m : State} {r : Request} (hr : m.lines.reset = false)
    (ha : m.requests.state = .answered r)
    (hd : ∀ i : Fin 16, m.report.dirty[i] = (decide (i < 2) || before.report.dirty[i])) :
    ((endOfEvent before m).requests.state).closes r before (endOfEvent before m) ∧
      (endOfEvent before m).requests.result = m.requests.result ∧
      (endOfEvent before m).requests.detail = m.requests.detail := by
  have hq : (endOfEvent before m).requests =
      { m.requests with
        state := .closing r ((markChanges before m).report.dirty.set 2 false) } := by
    unfold endOfEvent
    rw [if_neg (by simp [hr])]
    show (grantPort _).requests = _
    rw [requests_grantPort, requests_claimReport]
    have hm : (markChanges before m).requests.state = .answered r := ha
    unfold drawAwaited
    rw [hm]
    rfl
  have hmir : ∀ i, (endOfEvent before m).mirror i = m.mirror i :=
    mirror_congr (by rw [hq]) (by rw [hq]) (by rw [hq, ha]; rfl) (keeps_endOfEvent before m)
  refine ⟨?_, by rw [hq], by rw [hq]⟩
  have hdirty : ∀ i : Fin 16, (markChanges before m).report.dirty[i] =
      (decide (i < 2) || before.report.dirty[i] || decide (before.mirror i ≠ m.mirror i)) := by
    intro i
    rw [← hd i]
    simp [markChanges]
  rw [hq]
  simp only [RequestState.closes]
  refine ⟨trivial, fun i => ?_⟩
  rw [hmir, ← hdirty]
  by_cases hi : i = 2
  · subst hi; simp
  · have hv : (2 : Nat) ≠ i.val := fun hc => hi (Fin.ext hc.symm)
    simp [hv, hi]

/-- A result makes the two result words dirty, and no other (R166). -/
theorem dirty_answer (s : State) (result : ResultCode) (detail : Word) (i : Fin 16) :
    (s.answer result detail).report.dirty[i] = (decide (i < 2) || s.report.dirty[i]) := by
  revert i
  simp only [State.answer, Fin.getElem_fin, Vector.getElem_set]
  intro i
  by_cases h0 : i.val = 0
  · simp [h0, Fin.lt_def]
  · by_cases h1 : i.val = 1
    · simp [h1, Fin.lt_def]
    · have h2 : ¬i < 2 := by simp [Fin.lt_def]; omega
      simp [h2, Ne.symm h0, Ne.symm h1]

/-! ### A taken request event -/

theorem locate_requestCode (s : State) : s.locate requestCodeAddr = .control 0 := by
  unfold State.locate
  have h : requestCodeAddr.toNat = 0x3FFF00 := by decide
  simp [h, Config.configBase, Config.configWords, Config.controlBase, Config.controlWords]

theorem classify_requestAccess (s : State) (code : Word) :
    classify s (requestAccess code) = .capture .requestCode := by
  unfold classify requestAccess
  rw [locate_requestCode]
  rfl

/-- The state in which a taken request is dispatched: its write waits for the memory port, its code
is captured, and it is in hand. -/
def requestInHand (code : Word) (s : State) : State :=
  let waiting := enterWaiting (requestAccess code) false s
  { waiting with
    port := { waiting.port with requestCode := code }
    requests := { s.requests with state := .inHand ⟨code, s.port.arguments⟩ } }

/-- A request event that is taken dispatches the request (R165). -/
theorem requestWrite_ready {s : State} (h : s.requestReady) (code : Word) :
    requestWrite code s =
      endOfEvent s (dispatch ⟨code, s.port.arguments⟩ (requestInHand code s)) := by
  obtain ⟨ha, hi⟩ := h
  unfold requestWrite event offerAccess takeAccess
  have hm : (requestAccess code).mid = .processor := rfl
  rw [hm, ha, classify_requestAccess]
  simp only [if_true, carryOut]
  have hp : accessPayload (requestAccess code).op = some (code, allBytes) := rfl
  rw [hp]
  simp only [consume, captureRequestCode, mergeBytes_allBytes, if_true, requestEvent]
  have hs : (enterWaiting (requestAccess code) false s).requests.state = .idle := hi
  simp only [hs, RequestState.request, takeRequest]
  rfl

theorem keeps_requestInHand (code : Word) (s : State) :
    KeepsAllBut [.requests, .captured] s (requestInHand code s) := by
  refine ⟨fun p hp => ?_⟩
  cases p <;> simp_all [samePart, requestInHand, enterWaiting]

/-! ### The processor's place across the end of an event -/

theorem processorPlace_grantPort (s : State) :
    (grantPort s).port.places.processor = s.port.places.processor := by
  unfold grantPort grantPass grantInternal releaseGranted holdSetpointRead startOp
  dsimp only
  repeat' split
  all_goals rfl

theorem processorPlace_claimReport (s : State) :
    (claimReport s).port.places.processor = s.port.places.processor := by
  unfold claimReport chooseReport claimMirrorOrSnapshot claimSnapshot claimMirror beginRecord
  repeat' split
  all_goals rfl

/-- The end of an event leaves the processor's place as its own effect left it. -/
theorem processorPlace_endOfEvent (before s : State) :
    (endOfEvent before s).port.places.processor = s.port.places.processor := by
  unfold endOfEvent
  split
  · rfl
  · show (grantPort _).port.places.processor = _
    rw [processorPlace_grantPort, processorPlace_claimReport]
    unfold drawAwaited
    split <;> rfl

/-! ### Answered requests -/

/-- A taken request whose dispatch hands a result is answered (R166). -/
theorem answered_requestWrite {s m : State} {code detail : Word} {result : ResultCode}
    (h : s.requestReady) (hm : dispatch ⟨code, s.port.arguments⟩ (requestInHand code s) = m)
    (hr : m.requests = ⟨.answered ⟨code, s.port.arguments⟩, result, detail⟩)
    (hd : ∀ i : Fin 16, m.report.dirty[i] = (decide (i < 2) || s.report.dirty[i]))
    (hl : m.lines.reset = false)
    (hc : RequestCaptured code s m) : Answered code result detail s (requestWrite code s) := by
  rw [requestWrite_ready h, hm]
  obtain ⟨a, b, c⟩ := closes_endOfEvent (before := s) hl (by rw [hr]) hd
  have k := (keeps_endOfEvent s m).same .captured (by decide)
  simp only [samePart] at k
  refine ⟨?_, ?_, a, ?_, ?_, ?_⟩
  · rw [b, hr]
  · rw [c, hr]
  · rw [k.1]; exact hc.1
  · rw [k.2]; exact hc.2.1
  · rw [processorPlace_endOfEvent]; exact hc.2.2

/-- A taken request that is answered with no other effect. -/
theorem refused_requestWrite {s : State} {code detail : Word} {result : ResultCode}
    (h : s.requestReady)
    (hm : dispatch ⟨code, s.port.arguments⟩ (requestInHand code s) =
      (requestInHand code s).answer result detail) :
    Refused code result detail s (requestWrite code s) := by
  have hl : s.lines.reset = false := by
    have := h.1
    simp only [State.accepts, Bool.and_eq_true] at this
    simpa using this.1.1
  refine ⟨answered_requestWrite h hm rfl (fun i => ?_) hl ⟨rfl, rfl, rfl⟩, ?_⟩
  · exact dirty_answer ..
  · rw [requestWrite_ready h, hm]
    exact keeps_trans (keeps_seq (keeps_requestInHand code s) (keeps_answer ..))
      (keeps_mono (keeps_endOfEvent ..) (by decide))

/-! ### The commands that are accesses -/

/-- Every command that is an access answers the event of its arrival. -/
theorem exec_access {c : Instr} {a : Access} (h : accessOf c = some a) (s : State) :
    exec c s = .next (arrive a s) := by
  cases c <;> simp only [accessOf, Option.some.injEq, reduceCtorEq] at h <;> subst h <;> rfl

end Sys2Proof.Laws
end

