-- ==== Sys2Proof/Laws/Frames.lean ====
section
/-! SUPPORT. What each part of a FRAME arrival leaves unchanged, and when its count of a group's
hold is made, said once. -/

namespace Sys2Proof.Laws

set_option Elab.async false

open Sys2Proof.Machine

/-! ### The count of a hold (R106) -/

theorem frameRetry_set {before s : State} {g : GroupNo} (h : before.retrySetSince s g = true) :
    frameRetry before g s = s := by
  simp [frameRetry, h]

theorem frameRetry_counts {before s : State} {g : GroupNo}
    (h : before.retrySetSince s g = false) : frameRetry before g s = retryCount g s := by
  simp [frameRetry, h]

theorem keeps_frameRetry (before : State) (g : GroupNo) (s : State) :
    KeepsAllBut [.groups] s (frameRetry before g s) := by
  unfold frameRetry
  split
  · exact keeps_refl _ s
  · exact keeps_retryCount g s

/-! ### The parts of an arrival -/

/-- The parts of State that a FRAME arrival may change beside the frame count and free values. -/
def framed : List Part := [.halt, .faultQueue, .hoists, .groups, .pacer, .batches, .counters]

theorem keeps_cadenceSnapshot (s : State) : KeepsAllBut [] s (cadenceSnapshot s) := by
  unfold cadenceSnapshot
  split
  · exact ⟨fun p _ => by cases p <;> simp [samePart, takeSnapshot]⟩
  · exact keeps_refl _ s

theorem keeps_discrepancyCount (s : State) : KeepsAllBut framed s (discrepancyCount s) := by
  unfold discrepancyCount
  repeat' split
  · exact keeps_mono (keeps_halt ..) (by decide)
  · exact keeps_mono (keeps_halt ..) (by decide)
  · unfold discrepancyReached
    exact keeps_seq (c := framed) (keeps_halt ..) (keeps_haltCause ..)
  · exact keeps_refl _ s

theorem keeps_inGuard {ch : List Part} {f : State → State} (k : ∀ s, KeepsAllBut ch s (f s))
    (s : State) : KeepsAllBut ch s (inGuard f s) := by
  unfold inGuard
  split
  · exact k s
  · exact keeps_refl _ s

theorem keeps_framePart (before : State) (p : FramePart) (s : State) :
    KeepsAllBut framed s (framePart before p s) := by
  cases p
  · exact keeps_mono (keeps_cadenceSnapshot s) (by decide)
  · exact keeps_discrepancyCount s
  · exact keeps_mono (keeps_inGuard (fun u => keeps_forEach keeps_hoistFrame allSlots u) s)
      (by decide)
  · exact keeps_mono
      (keeps_inGuard (fun u => keeps_forEach (keeps_frameRetry before) allGroups u) s) (by decide)
  · exact keeps_mono (keeps_inGuard keeps_offerFrame s) (by decide)

/-- A FRAME arrival, in any order of its parts. -/
theorem keeps_frameIn (order : List FramePart) (s : State) :
    KeepsAllBut (framed ++ [.frameCount, .free]) s (frameIn order s) := by
  have k : KeepsAllBut [.frameCount, .free] s (countFrame s) := by
    refine ⟨fun p hp => ?_⟩
    cases p <;> simp_all [samePart, countFrame]
  exact keeps_seq (c := framed ++ [.frameCount, .free]) k
    (keeps_forEach (keeps_framePart (countFrame s)) order _)

end Sys2Proof.Laws
end

