-- ==== Sys2Proof/Laws/Memory.lean ====
section
/-! SUPPORT. The motion memory: every operation keeps the canonical form, and what a read finds
after a write. -/

namespace Sys2Proof.Laws

set_option Elab.async false

open Sys2Proof.Machine

/-- An address below every listed one reads as unlisted. -/
theorem read_of_lt (m : List Host.Cell) (a : Nat) (h : ∀ c ∈ m, a < c.1) :
    Memory.read m a = Config.unlistedByte := by
  induction m with
  | nil => rfl
  | cons c rest ih =>
    obtain ⟨k, b⟩ := c
    have hk : a < k := h (k, b) (by simp)
    simp only [Memory.read, if_neg (Nat.ne_of_gt hk)]
    exact ih fun c hc => h c (List.mem_cons_of_mem _ hc)

theorem read_consByte (a k : Nat) (b : Byte) (rest : List Host.Cell)
    (h : ∀ c ∈ rest, a < c.1) :
    Memory.read (Memory.consByte a b rest) k = if k = a then b else Memory.read rest k := by
  unfold Memory.consByte
  by_cases hb : b = Config.unlistedByte
  · simp only [hb, if_true]
    by_cases hk : k = a
    · subst hk; simp [read_of_lt rest k h]
    · simp [hk]
  · simp only [hb, if_false, Memory.read]
    by_cases hk : k = a
    · simp [hk]
    · simp [hk, Ne.symm hk]

theorem wf_cons {c : Host.Cell} {m : List Host.Cell} (h : Memory.wf (c :: m)) :
    (∀ d ∈ m, c.1 < d.1) ∧ c.2 ≠ Config.unlistedByte ∧ Memory.wf m :=
  ⟨(List.pairwise_cons.mp h.1).1, h.2 c (by simp),
    (List.pairwise_cons.mp h.1).2, fun d hd => h.2 d (List.mem_cons_of_mem _ hd)⟩

theorem wf_consByte (a : Nat) (b : Byte) (m : List Host.Cell) (hm : Memory.wf m)
    (h : ∀ c ∈ m, a < c.1) : Memory.wf (Memory.consByte a b m) := by
  unfold Memory.consByte
  split
  · exact hm
  · refine ⟨List.pairwise_cons.mpr ⟨h, hm.1⟩, fun c hc => ?_⟩
    rcases List.mem_cons.mp hc with rfl | hc
    · assumption
    · exact hm.2 c hc

theorem mem_write (m : List Host.Cell) (a : Nat) (b : Byte) (c : Host.Cell)
    (hc : c ∈ Memory.write m a b) : c.1 = a ∨ c ∈ m := by
  induction m with
  | nil =>
    simp only [Memory.write, Memory.consByte] at hc
    split at hc <;> simp_all
  | cons d rest ih =>
    obtain ⟨k, x⟩ := d
    simp only [Memory.write, Memory.consByte] at hc
    repeat' split at hc
    all_goals simp_all
    all_goals grind

theorem wf_write (m : List Host.Cell) (a : Nat) (b : Byte) (hm : Memory.wf m) :
    Memory.wf (Memory.write m a b) := by
  induction m with
  | nil => exact wf_consByte a b [] hm (by simp)
  | cons d rest ih =>
    obtain ⟨k, x⟩ := d
    obtain ⟨hlt, hx, hrest⟩ := wf_cons hm
    simp only [Memory.write]
    split
    · refine wf_consByte a b _ hm fun c hc => ?_
      rcases List.mem_cons.mp hc with rfl | hc
      · assumption
      · exact Nat.lt_trans ‹a < k› (hlt c hc)
    · split
      · subst_vars; exact wf_consByte _ b rest hrest hlt
      · refine ⟨List.pairwise_cons.mpr ⟨fun c hc => ?_, (ih hrest).1⟩, fun c hc => ?_⟩
        · rcases mem_write rest a b c hc with h | h
          · simp only [h]; omega
          · exact hlt c h
        · rcases List.mem_cons.mp hc with rfl | hc
          · exact hx
          · exact (ih hrest).2 c hc

/-- A read after a write of one byte. -/
theorem read_write (m : List Host.Cell) (a k : Nat) (b : Byte) (hm : Memory.wf m) :
    Memory.read (Memory.write m a b) k = if k = a then b else Memory.read m k := by
  induction m with
  | nil => simp only [Memory.write]; exact read_consByte a k b [] (by simp)
  | cons d rest ih =>
    obtain ⟨j, x⟩ := d
    obtain ⟨hlt, hx, hrest⟩ := wf_cons hm
    simp only [Memory.write]
    split
    · refine read_consByte a k b _ fun c hc => ?_
      rcases List.mem_cons.mp hc with rfl | hc
      · assumption
      · exact Nat.lt_trans ‹a < j› (hlt c hc)
    · split
      · subst_vars
        rw [read_consByte _ k b rest hlt]
        simp only [Memory.read]
        split
        · rfl
        · grind
      · simp only [Memory.read, ih hrest]
        grind

theorem wf_writeLane (a : Addr) (d : Word) (e : ByteEnables) (n : Nat) (m : List Host.Cell)
    (hm : Memory.wf m) : Memory.wf (Memory.writeLane a d e n m) := by
  unfold Memory.writeLane; split
  · exact wf_write _ _ _ hm
  · exact hm

/-- Every memory operation keeps the canonical form. -/
theorem wf_writeWord (m : List Host.Cell) (a : Addr) (d : Word) (e : ByteEnables)
    (hm : Memory.wf m) : Memory.wf (Memory.writeWord m a d e) :=
  wf_writeLane _ _ _ _ _ (wf_writeLane _ _ _ _ _ (wf_writeLane _ _ _ _ _
    (wf_writeLane _ _ _ _ _ hm)))

theorem wf_reset : Memory.wf State.reset.mem := by decide

theorem read_writeLane (a : Addr) (d : Word) (e : ByteEnables) (n k : Nat) (m : List Host.Cell)
    (hm : Memory.wf m) :
    Memory.read (Memory.writeLane a d e n m) k =
      if k = laneAddr a n ∧ e.getLsbD n = true then byteOf d n else Memory.read m k := by
  unfold Memory.writeLane
  by_cases he : e.getLsbD n = true
  · simp only [he, if_true, and_true]; exact read_write _ _ _ _ hm
  · simp [he]

/-- A read after a word write finds the enabled bytes of its four lanes, and memory elsewhere. -/
theorem read_writeWord (m : List Host.Cell) (a : Addr) (d : Word) (e : ByteEnables) (k : Nat)
    (hm : Memory.wf m) :
    Memory.read (Memory.writeWord m a d e) k =
      if k / 4 = a.toNat ∧ e.getLsbD (k % 4) = true then byteOf d (k % 4)
      else Memory.read m k := by
  unfold Memory.writeWord
  have h0 := wf_writeLane a d e 0 m hm
  have h1 := wf_writeLane a d e 1 _ h0
  have h2 := wf_writeLane a d e 2 _ h1
  rw [read_writeLane _ _ _ _ _ _ h2, read_writeLane _ _ _ _ _ _ h1, read_writeLane _ _ _ _ _ _ h0,
    read_writeLane _ _ _ _ _ _ hm]
  simp only [laneAddr]
  have hk : k % 4 = 0 ∨ k % 4 = 1 ∨ k % 4 = 2 ∨ k % 4 = 3 := by omega
  rcases hk with h | h | h | h <;> rw [h]
  all_goals by_cases ha : k / 4 = a.toNat
  all_goals simp only [ha, true_and, false_and, if_false]
  all_goals grind

end Sys2Proof.Laws
end

