-- ==== Sys2Proof/Tests/Slice0.lean ====
section
/-! SUPPORT. The model's own tests: the well-formedness checks, a few commands on a small rig, and
one witness for the hypotheses of every statement that has any. -/

namespace Sys2Proof.Tests

set_option Elab.async false

open Sys2Proof.Machine

/-! ### WellFormed refuses -/

theorem test_wellFormed_keyWordIsItsOwnRow :
    Instr.wellFormed (.accessArrival ⟨.processor, keyWordAddr 3, .write 5 3⟩) = false ∧
      Instr.wellFormed (.accessArrival ⟨.driveLink, keyWordAddr 3, .write 5 3⟩) = true := by
  decide

theorem test_wellFormed_requestEventIsItsOwnRow :
    Instr.wellFormed (.accessArrival ⟨.processor, requestCodeAddr, .write 5 15⟩) = false ∧
      Instr.wellFormed (.accessArrival ⟨.processor, requestCodeAddr, .write 5 7⟩) = true := by
  decide

theorem test_wellFormed_configurableTop :
    Instr.wellFormed (.goalWrite 0x3FF000 5) = false ∧
      Instr.wellFormed (.gridWrite 0x3FF000 5) = false ∧
      Instr.wellFormed (.statusWordWrite 0x3FF000 5 15) = false ∧
      Instr.wellFormed (.statusArrival 0x3FF000 5 15) = false ∧
      Instr.wellFormed (.goalWrite 0x3FEFFF 5) = true := by
  decide

theorem test_wellFormed_unknownRequestNamesNone :
    Instr.wellFormed (.unknownRequest 1) = false ∧ Instr.wellFormed (.unknownRequest 15) = false ∧
      Instr.wellFormed (.unknownRequest 0) = true ∧
      Instr.wellFormed (.unknownRequest 16) = true := by
  decide

/-! ### A small rig -/

/-- A hoist as a load leaves it, then synced at 1000 pu by a report of POWERED, in STANDBY. -/
def testHoist (group : Option GroupNo) (queue : QueueNo) : Hoist where
  group := group
  queue := queue
  step := 50
  approachRatio := 2
  lowerLimit := 0
  upperLimit := 4000
  overloadThreshold := 500
  slackThreshold := 0
  followLimit := 100
  approachBand := 400
  wakeDelay := 2
  brakeDelay := 1
  power := .standby
  command := .powered
  commandDirty := false
  runDemand := false
  delay := 0
  confirm := 0
  settle := 0
  commanded := 1000
  synced := true
  syncDue := false
  lastDirection := none
  sinceStep := 3
  goal := none
  measured := some 1000
  load := some 100
  reported := some .powered
  driveCode := none
  stamp := some 7
  age := 0
  causes := .empty

def testGroup : TrussGroup where
  members := [1, 2]
  queue := 4
  tolerance := 90
  policy := .retry
  retryHold := 3
  state := .idle
  causes := .empty
  retry := 0
  lastSpread := 0

/-- Slot 0 ungrouped on A0, slots 1 and 2 in group 0 on B0, in GUARD with the lock OPEN, both
channels CLOSED and no halt. -/
def rig : State :=
  { State.reset with
    regions := [⟨.setpoint, 0x1000, 512⟩, ⟨.status, 0x2000, 512⟩, ⟨.grid, 0x3000, 4⟩,
      ⟨.ring, 0x4000, 64⟩, ⟨.statistics, 0x5000, 64⟩, ⟨.user true true, 0x6000, 16⟩]
    loader := { Loader.reset with
      gate := .guard, result := .passed, previousRing := some ⟨0x4000, 16⟩ }
    lock := ⟨.opened, some #v[1, 2, 3, 4], Vector.replicate 4 0⟩
    hoists := (((Vector.replicate 128 none).set 0 (some (testHoist none 0))).set 1
      (some (testHoist (some 0) 4))).set 2 (some (testHoist (some 0) 4))
    confirmLimit := some 5
    idlePark := some 8
    groups := (Vector.replicate 32 none).set 0 (some testGroup)
    goals := ⟨.direct, some 0xFFFFFFFF, []⟩
    grid := some ⟨2, 2, .none0, false, [some 0, some 1, none, some 2]⟩
    pacer := { Pacer.reset with
      queues := ((Vector.replicate 8 PacingQueue.clear).set 0
        ⟨some 256, 0, false, [], none⟩).set 4 ⟨some 256, 0, false, [], none⟩
      budget := some 4
      reversalDwell := some 0 }
    statusTimeout := some 12
    halt := ⟨.closed, .closed, false, .empty, 0, .notRequired⟩
    report := { ReportWriter.reset with ring := some ⟨0x4000, 16⟩, cadence := some (1, 0) }
    lines := ⟨.closed, .closed, false, true, false, .all false⟩ }

/-- The rig with one hoist's record changed. -/
def rigWith (slot : Slot) (f : Hoist → Hoist) : State := rig.updateHoist slot f

/-- The rig with the argument words of a request. -/
def rigAsked (a0 a1 a2 : Word) : State :=
  { rig with port := { rig.port with arguments := #v[a0, a1, a2, 0] } }

/-- What a command leaves, as a test of the next state. -/
def leaves (o : Host.Outcome State Fault Refusal) (p : State → Bool) : Bool :=
  match o with
  | .next t => p t
  | .fault _ => false
  | .refused _ => false

/-! ### Commands -/

theorem test_lock_closes : leaves (exec .lock rig) (fun t => t.lock.state = .closed) = true := by
  decide +kernel

theorem test_unlock_mismatch :
    leaves (exec .unlock rig) (fun t => t.requests.result = .keyMismatch) = true := by
  decide +kernel

theorem test_goalWrite_links :
    leaves (exec (.goalWrite 0x1000 1100) rig)
      (fun t => (t.queue 0).movers = [.hoist 0] ∧
        (t.hoist 0).any (fun h => h.goal = some 1100 ∧ h.power = .releasing)) = true := by
  decide +kernel

theorem test_goalWrite_limit :
    leaves (exec (.goalWrite 0x1000 4001) rig)
      (fun t => t.report.queue = [⟨.notice .goalLimit, some 0, 4001, 4000⟩]) = true := by
  decide +kernel

theorem test_gridWrite_emptyCell :
    leaves (exec (.gridWrite 0x3002 1100) rig)
      (fun t => t.report.queue = [⟨.notice .gridEmptyCell, none, 1100, 0x3002⟩]) = true := by
  decide +kernel

theorem test_gridWrite_linksTheGroup :
    leaves (exec (.gridWrite 0x3003 1100) rig)
      (fun t => (t.queue 4).movers = [.group 0] ∧
        (t.group 0).any (fun r => r.state = .moving)) = true := by
  decide +kernel

theorem test_keyWord_merges :
    leaves (exec (.keyWordWrite 2 0x11223344 5) rig)
      (fun t => t.lock.keys = #v[0, 0, 0x00220044, 0]) = true := by
  decide +kernel

theorem test_statusWord_marks :
    leaves (exec (.statusWordWrite 0x2005 9 15) rig)
      (fun t => (t.statusCopy 1).marks = #v[false, true, false]) = true := by
  decide +kernel

theorem test_statusArrival_incomplete :
    leaves (exec (.statusArrival 0x2007 9 15) rig)
      (fun t => t.report.queue = [⟨.notice .statusIncomplete, some 1, 9, 0⟩]) = true := by
  decide +kernel

/-- The rig with the words 0 to 2 of slot 0's status record written. -/
def rigReported (measured : Int) (load state : Nat) : State :=
  rig.updateStatus 0 fun _ =>
    ⟨#v[BitVec.ofInt 32 measured, BitVec.ofNat 32 load, BitVec.ofNat 32 state, 0],
      Vector.replicate 3 true⟩

/-- A negative position is past the limits of a hoist whose lower limit is 0 and whose follow limit
is 100 (log entry 29). -/
theorem test_statusArrival_negativePosition :
    leaves (exec (.statusArrival 0x2003 9 15) (rigReported (-50) 100 1))
      (fun t => (t.hoist 0).any (fun h => h.causes.limitOverrun ∧ h.measured = some (-50)) ∧
        t.report.queue = [⟨.hoist .limitOverrun, some 0, 0xFFFFFFCE, 0xFFFFFF9C⟩]) = true := by
  decide +kernel

theorem test_power_standbyOfOff :
    leaves (exec .power { rigWith 0 Hoist.fallToOff with
        port := { rig.port with arguments := #v[1, 0, 1, 0] } })
      (fun t => (t.hoist 0).any (fun h => h.power = .waking ∧ h.delay = 2) ∧
        t.requests.detail = 1) = true := by
  decide +kernel

theorem test_setRate_replaces :
    leaves (exec .setRate (rigAsked 4 64 0))
      (fun t => (t.queue 4).increment = some 64 ∧ t.requests.detail = 256) = true := by
  decide +kernel

theorem test_setTrim_badArgument :
    leaves (exec .setTrim (rigAsked 9 0 0)) (fun t => t.requests.result = .badArgument) = true := by
  decide +kernel

theorem test_setModeBypass_freezes :
    leaves (exec .setModeBypass (rigAsked 1 0 0))
      (fun t => t.loader.gate = .bypass ∧ t.pacer.frozen) = true := by
  decide +kernel

theorem test_restart_unconfigures :
    leaves (exec .restart rig)
      (fun t => t.loader.gate = .unconfigured ∧ t.hoist 0 = none) = true := by
  decide +kernel

theorem test_load_begins :
    leaves (exec .load rig)
      (fun t => t.loader.phase = .reading 0 ∧
        t.memPort.op.any (fun op => op.claimant = .passThrough .processor)) = true := by
  decide +kernel

theorem test_unknownRequest_answered :
    leaves (exec (.unknownRequest 16) rig)
      (fun t => t.requests.result = .unknownRequest) = true := by
  decide +kernel

theorem test_stopChannel_halts :
    leaves (exec (.stopChannelOpens .b) rig)
      (fun t => t.halt.latched ∧ !t.lines.enable ∧ t.lines.fault ∧
        t.writer.hand.any (fun b => b.records.map SetpointRecord.kind = [.halt, .halt, .halt])) =
      true := by
  decide +kernel

/-- A halt that discards a SYNC record unwritten records its hoist again with kind SYNC, and a hoist
whose record was of another kind with kind HALT (R118, R125). -/
theorem test_halt_recordsTheDiscardedSync :
    leaves (exec (.stopChannelOpens .a) { rig with
        writer := ⟨.starting, some ⟨5,
          [⟨0, 1000, .powered, .sync, 0⟩, ⟨1, 1000, .powered, .pace, 0⟩], 0, false⟩, none, []⟩ })
      (fun t => t.writer.hand.any (fun b => b.records.map (fun r => (r.slot, r.kind)) ==
        [(0, .sync), (1, .halt), (2, .halt)]) && (t.hoist 0).any (!·.syncDue)) = true := by
  decide +kernel

theorem test_reset_asserts :
    leaves (exec .resetAsserted rig) (fun t => t.lines.wait = .all true ∧ t.halt.causes.reset) =
      true := by
  decide +kernel

theorem test_confirmTimeout_falls :
    leaves (exec (.confirmTimeout 0) (rigWith 0 fun h =>
        { h with power := .waking, confirm := 4 }))
      (fun t => (t.hoist 0).any (fun h => h.power = .off ∧ h.causes.confirmTimeout)) = true := by
  decide +kernel

theorem test_statusLost_holdsTheGroup :
    leaves (exec (.statusLost 1) (rigWith 1 fun h => { h with age := 12 }))
      (fun t => (t.group 0).any (fun r => r.state = .held ∧ r.retry = 3)) = true := by
  decide +kernel

theorem test_takeFrame_pacesAStep :
    (takeFrame { rigWith 0 fun h =>
        { h with power := .run, command := .released, goal := some 1100 } with
      pacer := { rig.pacer with
        queues := rig.pacer.queues.set 0 ⟨some 256, 0, false, [.hoist 0], none⟩ } }).writer.hand.any
      (fun b => b.records = [⟨0, 1012, .released, .pace, 12⟩]) = true := by
  decide +kernel

theorem test_frame_countsAndCompares :
    (event (frameIn [.snapshot, .discrepancy])
      { rig with halt := { rig.halt with channelB := .opened, discrepancy := 6 } }
        ).halt.discrepancy = 7 := by
  decide +kernel

/-- A member's first cause at a FRAME arrival restarts the retry hold, and neither order of the
parts counts it at the arrival too (log entry 30). -/
theorem test_frame_restartedHoldIsNotCounted :
    let s := (rigWith 1 fun h => { h with age := 12 }).updateGroup 0
      fun r => { r with retryHold := 1 }
    ((frameRetry s 0 (hoistFrame 1 s)).group 0).any
        (fun r => r.state = .held ∧ r.retry = 1) = true ∧
      ((hoistFrame 1 (frameRetry s 0 s)).group 0).any
        (fun r => r.state = .held ∧ r.retry = 1) = true := by
  decide +kernel

theorem test_hoistFrame_counts :
    ((hoistFrame 0 rig).hoist 0).any (fun h => h.age = 1 ∧ h.sinceStep = 4) = true := by
  decide +kernel

theorem test_access_dropsAProcessorStatusWrite :
    leaves (exec (.accessArrival ⟨.processor, addrOf 0x2000, .write 5 15⟩) rig)
      (fun t => t.report.queue = [⟨.notice .statusSource, some 0, 0x2000, 0⟩]) = true := by
  decide +kernel

theorem test_access_passesAPlainRead :
    leaves (exec (.accessArrival ⟨.service, addrOf 9, .read⟩) rig)
      (fun t => t.memPort.op.any (fun op => op.addr = 9) && t.lines.wait.get .service) = true := by
  decide +kernel

theorem test_go_promotes :
    leaves (exec .go { rig with goals := ⟨.cued, some 0xFFFFFFFF, [⟨0, 1100, 5⟩]⟩ })
      (fun t => t.goals.staging = [] ∧ (t.hoist 0).any (fun h => h.goal = some 1100)) = true := by
  decide +kernel

theorem test_clearStage_empties :
    leaves (exec .clearStage { rig with goals := ⟨.cued, some 0xFFFFFFFF, [⟨0, 0, 5⟩]⟩ })
      (fun t => t.goals.staging = [] ∧ t.requests.detail = 1) = true := by
  decide +kernel

theorem test_setGoalMode_sets :
    leaves (exec .setGoalMode rig) (fun t => t.goals.mode = .cued) = true := by
  decide +kernel

theorem test_withdraw_removesTheGoal :
    leaves (exec .withdraw { rigWith 0 fun h => { h with goal := some 1100 } with
        port := { rig.port with arguments := #v[1, 0, 0, 0] } })
      (fun t => (t.hoist 0).any (fun h => h.goal = none) ∧ t.requests.detail = 1) = true := by
  decide +kernel

theorem test_setModeGuard_refused :
    leaves (exec .setModeGuard rig) (fun t => t.requests.result = .refusedMode) = true := by
  decide +kernel

theorem test_clearFaultHoist_clears :
    leaves (exec .clearFaultHoist { rigWith 0 fun h =>
        { h with causes := { h.causes with slack := true } } with
        port := { rig.port with arguments := #v[1, 0, 0, 0] } })
      (fun t => (t.hoist 0).any (fun h => h.causes = .empty) ∧ !t.lines.fault) = true := by
  decide +kernel

theorem test_clearFaultGroup_idles :
    leaves (exec .clearFaultGroup { rig.updateGroup 0 fun r => { r with state := .held } with
        port := { rig.port with arguments := #v[2, 0, 0, 0] } })
      (fun t => (t.group 0).any (fun r => r.state = .idle)) = true := by
  decide +kernel

theorem test_resume_enables :
    leaves (exec .resume { rig with
        halt := { rig.halt with latched := true, causes := ⟨false, true, false, false⟩ } })
      (fun t => !t.halt.latched && t.lines.enable) = true := by
  decide +kernel

theorem test_snapshotStats_owes :
    leaves (exec .snapshotStats rig) (fun t => t.report.statsRequest = .own) = true := by
  decide +kernel

theorem test_retryHold_expires :
    leaves (exec (.retryHoldExpiry 0) (rig.updateGroup 0 fun r =>
        { r with state := .held, retry := 1 }))
      (fun t => (t.group 0).any (fun r => r.state = .idle)) = true := by
  decide +kernel

theorem test_queueService_falls :
    leaves (exec (.queueServiceDue 0) rig) (fun t => (t.queue 0).due) = true := by
  decide +kernel

theorem test_resetReleased_takesTheChannels :
    leaves (exec .resetReleased { State.reset with
        lines := { State.reset.lines with reset := true, stopB := .closed } })
      (fun t => t.halt.channelB = .closed ∧ t.halt.channelA = .opened) = true := by
  decide +kernel

/-! ### Hypotheses: helpers -/

theorem rests_of {s : State} (h : s.requests.state = .idle) (k : s.lines.reset = false) :
    RestsBetweenEvents s :=
  ⟨by simp [h], by simp [k]⟩

theorem rests_rig : RestsBetweenEvents rig := rests_of rfl rfl

theorem ready_rig : rig.requestReady := ⟨by decide +kernel, rfl⟩

/-- The rig with BYPASS, LOADING, a lock state, a latched halt, or RESET asserted. -/
def rigGate (g : GateMode) : State := { rig with loader := { rig.loader with gate := g } }

def rigLocked (x : LockState) : State := { rig with lock := { rig.lock with state := x } }

def rigHalted : State :=
  { rig with halt := { rig.halt with latched := true, causes := ⟨false, true, false, false⟩ } }

def rigInReset : State :=
  { State.reset with lines := { State.reset.lines with reset := true } }

theorem stagingSound_nil {s : State} (h : s.goals.staging = []) : StagingSound s := by
  simp [StagingSound, h]

/-- Whether groups and hoists name each other, each faulted member's group HELD. -/
def trussCheck (s : State) : Bool :=
  (allGroups.all fun g => match s.group g with
    | none => true
    | some r => r.members.Nodup && r.members.all fun slot =>
        (s.hoist slot).any fun h => h.group = some g) &&
  allSlots.all fun slot => match s.hoist slot with
    | none => true
    | some h => match h.group with
      | none => true
      | some g => (s.group g).any fun r =>
          slot ∈ r.members && (h.causes = .empty || r.state = .held)

theorem trussesHeld_of {s : State} (h : trussCheck s = true) : TrussesHeld s := by
  simp only [trussCheck, Bool.and_eq_true, List.all_eq_true] at h
  refine ⟨fun g r hr => ?_, fun slot x g hx hg => ?_⟩
  · have := h.1 g (List.mem_finRange g)
    rw [hr] at this
    simp only [Bool.and_eq_true, decide_eq_true_eq, List.all_eq_true] at this
    refine ⟨this.1, fun slot hs => ?_⟩
    have hs' := this.2 slot hs
    cases hh : s.hoist slot with
    | none => rw [hh] at hs'; simp at hs'
    | some y => rw [hh] at hs'; exact ⟨y, rfl, by simpa using hs'⟩
  · have := h.2 slot (List.mem_finRange slot)
    rw [hx] at this
    simp only [hg] at this
    cases hr : s.group g with
    | none => rw [hr] at this; simp at this
    | some r =>
      rw [hr] at this
      simp only [Option.any_some, Bool.and_eq_true, decide_eq_true_eq, Bool.or_eq_true] at this
      exact ⟨r, rfl, this.1, fun hc => this.2.resolve_left hc⟩

theorem trussesHeld_rig : TrussesHeld rig := trussesHeld_of (by decide +kernel)

/-! ### Hypotheses: accesses -/

theorem test_controlBlock_boundaries :
    [0, 1, 4, 5, 7, 8, 11, 12, 15, 16, 31, 32, 63].map (fun o =>
        classify rig ⟨.processor, addrOf (0x3FFF00 + o), .write 5 7⟩) =
      [.capture .requestCode, .capture (.argument 0), .capture (.argument 3), .pass, .pass,
        .capture (.keyWord 0), .capture (.keyWord 3), .pass, .pass, .drop none, .drop none, .pass,
        .pass] ∧
    [7, 8, 11, 12].map (fun o => classify rig ⟨.service, addrOf (0x3FFF00 + o), .read⟩) =
      [.pass, .zero, .zero, .pass] ∧
    [0, 63].map (fun o => classify rig ⟨.auxiliary, addrOf (0x3FFF00 + o), .write 5 15⟩) =
      [.drop (some (.controlSource, none)), .drop (some (.controlSource, none))] := by
  decide +kernel

theorem test_configurationBlock_boundaries :
    [0, 0x73, 0x74, 0x77, 0x78, 0x57F].map (fun o =>
        classify (rigLocked .permanent) ⟨.service, addrOf (0x3FF000 + o), .read⟩) =
      [.zero, .zero, .zero, .zero, .zero, .zero] ∧
    [0, 0x73, 0x74, 0x77, 0x78, 0x57F].map (fun o =>
        classify (rigLocked .closed) ⟨.driveLink, addrOf (0x3FF000 + o), .read⟩) =
      [.pass, .pass, .zero, .zero, .pass, .pass] ∧
    classify rig ⟨.service, addrOf 0x3FF074, .read⟩ = .pass ∧
    classify rig ⟨.processor, addrOf 0x3FF57F, .write 5 15⟩ = .pass ∧
    classify (rigLocked .closed) ⟨.processor, addrOf 0x3FF57F, .write 5 15⟩ =
      .drop (some (.lockedWrite, none)) ∧
    classify (rigGate .loading) ⟨.processor, addrOf 0x3FF000, .write 5 15⟩ = .hold ∧
    classify rig ⟨.service, addrOf 0x3FF000, .write 5 15⟩ = .drop none ∧
    classify rig ⟨.service, addrOf 0x3FF580, .write 5 15⟩ = .pass := by
  decide +kernel

theorem test_setpointArea_boundaries :
    [0, 1, 508, 511].map (fun o =>
        classify rig ⟨.processor, addrOf (0x1000 + o), .write 5 15⟩) =
      [.intercept 0, .drop (some (.goalFormat, some 0)), .intercept 127,
        .drop (some (.goalFormat, some 127))] ∧
    classify rig ⟨.processor, addrOf 0x1000, .write 5 7⟩ =
      .drop (some (.goalFormat, some 0)) ∧
    classify (rigGate .bypass) ⟨.processor, addrOf 0x11FF, .write 5 7⟩ = .pass ∧
    classify rig ⟨.service, addrOf 0x11FF, .write 5 7⟩ =
      .drop (some (.setpointSource, some 127)) ∧
    classify rig ⟨.driveLink, addrOf 0x11FF, .read⟩ = .pass ∧
    classify { rig with writer := { rig.writer with state := .writing } }
      ⟨.driveLink, addrOf 0x11FF, .read⟩ = .hold ∧
    classify rig ⟨.processor, addrOf 0x1200, .write 5 15⟩ = .pass := by
  decide +kernel

theorem test_configuredRegions_boundaries :
    [0, 3, 511].map (fun o => classify rig ⟨.driveLink, addrOf (0x2000 + o), .write 5 7⟩) =
      [.capture (.status 0 0), .capture (.status 0 3), .capture (.status 127 3)] ∧
    classify rig ⟨.processor, addrOf 0x21FF, .write 5 7⟩ =
      .drop (some (.statusSource, some 127)) ∧
    classify rig ⟨.processor, addrOf 0x3003, .write 5 15⟩ = .capture (.grid 3) ∧
    classify rig ⟨.processor, addrOf 0x3003, .write 5 7⟩ = .drop (some (.goalFormat, none)) ∧
    classify (rigGate .bypass) ⟨.processor, addrOf 0x3000, .write 5 7⟩ = .pass ∧
    classify rig ⟨.service, addrOf 0x3000, .write 5 15⟩ = .drop (some (.goalSource, none)) ∧
    classify rig ⟨.processor, addrOf 0x403F, .write 5 15⟩ = .pass ∧
    classify rig ⟨.driveLink, addrOf 0x5000, .write 5 15⟩ = .drop none ∧
    classify rig ⟨.auxiliary, addrOf 0x6000, .read⟩ = .zero ∧
    classify rig ⟨.driveLink, addrOf 0x600F, .read⟩ = .pass ∧
    classify (rigLocked .closed) ⟨.processor, addrOf 0x600F, .write 5 15⟩ =
      .drop (some (.lockedWrite, none)) ∧
    classify rig ⟨.auxiliary, addrOf 0x6000, .write 5 15⟩ = .drop none ∧
    classify rig ⟨.processor, addrOf 0x6000, .write 5 15⟩ = .pass ∧
    classify rig ⟨.auxiliary, addrOf 0x6010, .read⟩ = .pass := by
  decide +kernel

theorem regionsApart_rig : RegionsApart rig := ⟨by decide, by decide⟩

theorem test_locate_boundaries :
    RegionsApart rig ∧
    [0x0FFF, 0x1000, 0x11FF, 0x1200, 0x2000, 0x21FF, 0x3003, 0x3004, 0x603F, 0x3FEFFF].map
        (fun n => rig.locate (addrOf n)) =
      [.plain, .region .setpoint 0, .region .setpoint 511, .plain, .region .status 0,
        .region .status 511, .region .grid 3, .plain, .plain, .plain] ∧
    [0x3FF580, 0x3FFEFF, 0x3FFF40, 0x3FFFFF].map (fun n =>
        (rig.locate (addrOf n), (rigGate .loading).locate (addrOf n),
          classify (rigGate .loading) ⟨.service, addrOf n, .write 5 15⟩)) =
      List.replicate 4 (.plain, .plain, .pass) ∧
    [0x3FF57F, 0x3FFF00, 0x3FFF3F].map (fun n => rig.locate (addrOf n)) =
      [.configuration 0x57F, .control 0, .control 63] :=
  ⟨regionsApart_rig, by decide +kernel⟩

theorem test_accessCarriedOut_hypotheses :
    RestsBetweenEvents rig ∧ rig.accepts .processor = true ∧ rig.accepts .driveLink = true ∧
      rig.accepts .auxiliary = true ∧ rig.accepts .service = true ∧
      classify rig ⟨.processor, addrOf 0x3FFF04, .write 5 3⟩ = .capture (.argument 3) ∧
      classify rig ⟨.processor, addrOf 0x3FFF00, .write 5 3⟩ = .capture .requestCode := by
  exact ⟨rests_rig, by decide +kernel⟩

theorem test_accessNotTaken_hypotheses :
    (∃ c a s, accessOf c = some a ∧ RestsBetweenEvents s ∧ s.lines.reset = true) ∧
      ∃ c a s, accessOf c = some a ∧ RestsBetweenEvents s ∧ s.port.places.get a.mid ≠ .empty :=
  ⟨⟨.lock, requestAccess 5, rigInReset, rfl,
      ⟨by simp [rigInReset, State.reset], fun _ => ⟨rfl, rfl, by simp [rigInReset, State.reset]⟩⟩,
      rfl⟩,
    ⟨.lock, requestAccess 5,
      { rig with port := { rig.port with
        places := { rig.port.places with processor := .waiting (requestAccess 4) } } },
      rfl, rests_of rfl rfl, by simp [requestAccess, PerMid.get]⟩⟩

theorem test_goalWrite_hypotheses :
    RestsBetweenEvents rig ∧ StagingSound rig ∧ rig.accepts .processor = true ∧
      rig.loader.gate = .guard ∧ rig.locate 0x11FC = .region .setpoint 508 ∧ 508 < 512 ∧
      508 % 4 = 0 :=
  ⟨rests_rig, stagingSound_nil rfl, by decide +kernel⟩

theorem test_gridWrite_hypotheses :
    RestsBetweenEvents rig ∧ StagingSound rig ∧ rig.accepts .processor = true ∧
      rig.loader.gate = .guard ∧ rig.locate 0x3003 = .region .grid 3 ∧ ∃ g, rig.grid = some g :=
  ⟨rests_rig, stagingSound_nil rfl, by decide +kernel, rfl, by decide +kernel, ⟨_, rfl⟩⟩

theorem test_statusWords_hypotheses :
    RestsBetweenEvents rig ∧ rig.accepts .driveLink = true ∧
      rig.locate 0x21FE = .region .status 510 ∧ 510 % 4 < 3 ∧
      rig.locate 0x21FF = .region .status 511 ∧ 511 % 4 = 3 :=
  ⟨rests_rig, by decide +kernel⟩

theorem every_hoist {s : State} {p : Hoist → Bool}
    (k : ∀ slot : Slot, (s.hoist slot).all p = true) {slot : Slot} {h : Hoist}
    (e : s.hoist slot = some h) : p h = true := by
  have := k slot
  rw [e] at this
  exact this

theorem followPower_of {s : State}
    (k : ∀ slot : Slot, (s.hoist slot).all (fun h => h.command = commandOf h.power) = true) :
    CommandsFollowPower s := fun _ _ e => by simpa using every_hoist k e

theorem test_statusArrival_hypotheses :
    (∀ s, s ∈ [rig, rigReported 1000 100 1, rigReported 1000 501 1, rigReported (-1) 100 0] →
      RestsBetweenEvents s ∧ CommandsFollowPower s ∧ TrussesHeld s) ∧
      rig.accepts .driveLink = true ∧
      (rigReported 1000 100 1).accepts .driveLink = true ∧
      rig.locate 0x2003 = .region .status 3 ∧ rig.locate 0x21FF = .region .status 511 ∧
      511 % 4 = 3 ∧
      (let s := (rigReported 1000 501 1).updateGroup 0 fun r => { r with state := .moving }
       TrussesHeld s ∧ ∀ m ∈ testGroup.members, s.syncedAt m = true) := by
  refine ⟨fun s hs => ?_, by decide +kernel, by decide +kernel, by decide +kernel,
    by decide +kernel, by decide, trussesHeld_of (by decide +kernel), by decide +kernel⟩
  simp only [List.mem_cons, List.not_mem_nil, or_false] at hs
  rcases hs with rfl | rfl | rfl | rfl <;>
    exact ⟨rests_of rfl rfl, followPower_of (by decide +kernel),
      trussesHeld_of (by decide +kernel)⟩

theorem test_keyWord_hypotheses : RestsBetweenEvents rig ∧ rig.accepts .processor = true :=
  ⟨rests_rig, by decide +kernel⟩

/-! ### Hypotheses: requests -/

theorem ready_of {s : State} (h : s.accepts .processor = true) (k : s.requests.state = .idle) :
    s.requestReady := ⟨h, k⟩

theorem test_load_hypotheses :
    State.reset.requestReady ∧ HeldSetpointRead State.reset ∧
      State.reset.loader.gate = .unconfigured ∧
    (rigLocked .closed).requestReady ∧ HeldSetpointRead (rigLocked .closed) ∧
    rig.requestReady ∧ HeldSetpointRead rig ∧ ¬RigMoves rig ∧
    (let s := rigWith 0 fun h => { h with power := .run }
     s.requestReady ∧ HeldSetpointRead s ∧ RigMoves s) ∧
    (rigGate .bypass).requestReady ∧ HeldSetpointRead (rigGate .bypass) := by
  refine ⟨⟨by decide +kernel, rfl⟩, trivial, rfl, ⟨by decide +kernel, rfl⟩, trivial, ready_rig,
    trivial, ?_, ⟨⟨by decide +kernel, rfl⟩, trivial, ?_⟩, ⟨by decide +kernel, rfl⟩, trivial⟩
  · rintro (⟨slot, h, hh, hp⟩ | hl)
    · have key : ∀ slot : Slot, (rig.hoist slot).all (fun h => h.power = .standby) = true := by
        decide +kernel
      have := key slot
      rw [hh] at this
      simp only [Option.all_some, decide_eq_true_eq] at this
      rcases hp with hp | hp <;> rw [this] at hp <;> exact absurd hp (by decide)
    · exact hl (by decide +kernel)
  · exact Or.inl ⟨0, { testHoist none 0 with power := .run }, by decide +kernel, Or.inr rfl⟩

theorem test_restart_hypotheses :
    State.reset.requestReady ∧ HeldSetpointRead State.reset ∧
    (rigLocked .permanent).requestReady ∧ HeldSetpointRead (rigLocked .permanent) ∧
    rig.requestReady ∧
      HeldSetpointRead { rig with port := { rig.port with
        places := { rig.port.places with driveLink := .held ⟨.driveLink, 0x1000, .read⟩ } } } :=
  ⟨⟨by decide +kernel, rfl⟩, trivial, ⟨by decide +kernel, rfl⟩, trivial, ready_rig,
    ⟨rfl, rfl, by decide +kernel⟩⟩

/-- A snapshot word in flight at a teardown is left to complete for no one (R126, R171). -/
theorem test_restart_leavesTheSnapshotWord :
    let op : PortOp := ⟨.reportWriter, 0x5000, .write 5 15, true⟩
    let s := { rig with
      memPort := ⟨some op, .internal⟩
      report := { rig.report with
        snapshot := .writing ⟨0, 0, Vector.replicate 32 0⟩ 7
        claim := some ⟨.snapshot, 0x5008, 5⟩ } }
    s.requestReady ∧ HeldSetpointRead s ∧
      leaves (exec .restart s) (fun t =>
        t.memPort.op = some { op with live := false } && t.report.snapshot = .notTaken) = true :=
  ⟨⟨by decide +kernel, rfl⟩, trivial, by decide +kernel⟩

theorem test_setMode_hypotheses :
    [0, 1, 2].map (fun a => (rigAsked a 0 0).accepts .processor) = [true, true, true] ∧
      (rigGate .bypass).requestReady ∧ (rigGate .bypass).port.arguments[0] = 0 ∧
      (rigLocked .closed).requestReady ∧ (rigAsked 1 0 0).port.arguments[0] = 1 ∧
      (rigAsked 2 0 0).port.arguments[0] ≠ 0 := by
  unfold State.requestReady
  decide +kernel

theorem test_unlock_hypotheses :
    State.reset.requestReady ∧ State.reset.lock.state = .noPassword ∧
    (rigLocked .permanent).requestReady ∧ (rigLocked .closed).requestReady ∧ ¬KeyMatches rig ∧
    KeyMatches { rig with lock := { rig.lock with keys := #v[1, 2, 3, 4] } } ∧
    (let s := { rig with requests := { rig.requests with
        state := .closing ⟨5, #v[0, 0, 0, 0]⟩ (Vector.replicate 16 true) } }
     RestsBetweenEvents s ∧ s.accepts .processor = true ∧ s.requests.state ≠ .idle) := by
  refine ⟨⟨by decide +kernel, rfl⟩, rfl, ⟨by decide +kernel, rfl⟩, ⟨by decide +kernel, rfl⟩, ?_,
    ⟨#v[1, 2, 3, 4], rfl, fun _ => rfl⟩, ⟨by simp, by simp [rig]⟩, by decide +kernel, by simp⟩
  rintro ⟨p, hp, hk⟩
  have hp' : (some #v[1, 2, 3, 4] : Option (Vector Word 4)) = some p := hp
  cases hp'
  exact absurd (hk 0) (by decide +kernel)

theorem test_lock_hypotheses :
    rig.requestReady ∧ rig.lock.state = .opened ∧ (rigLocked .closed).requestReady ∧
      State.reset.requestReady ∧ (rigLocked .permanent).requestReady := by
  unfold State.requestReady
  decide +kernel

/-- The rig with two staged goals, the second for a member of the group. -/
def rigStaged : State :=
  { rig with goals := ⟨.cued, some 0xFFFFFFFF, [⟨0, 0, 5⟩, ⟨1, 4000, 6⟩]⟩ }

theorem stagingSound_rigStaged : StagingSound rigStaged := by
  refine ⟨by decide +kernel, fun e he => ?_⟩
  have he' : e = ⟨0, 0, 5⟩ ∨ e = ⟨1, 4000, 6⟩ := by
    simpa [rigStaged] using he
  rcases he' with rfl | rfl
  · exact ⟨testHoist none 0, by decide +kernel, by decide, by decide⟩
  · exact ⟨testHoist (some 0) 4, by decide +kernel, by decide, by decide⟩

theorem test_go_hypotheses :
    rigStaged.requestReady ∧ StagingSound rigStaged ∧ rigStaged.promoted.length = 2 ∧
      State.reset.requestReady ∧ StagingSound State.reset ∧
      rigHalted.requestReady ∧ StagingSound rigHalted :=
  ⟨⟨by decide +kernel, rfl⟩, stagingSound_rigStaged, by decide +kernel, ⟨by decide +kernel, rfl⟩,
    stagingSound_nil rfl, ⟨by decide +kernel, rfl⟩, stagingSound_nil rfl⟩

theorem test_stagingRequests_hypotheses :
    State.reset.requestReady ∧ State.reset.loader.gate = .unconfigured ∧
      rigStaged.requestReady ∧ rigStaged.loader.gate ≠ .loading ∧
      (rigAsked 1 0 0).requestReady ∧ (rigAsked 2 0 0).requestReady := by
  unfold State.requestReady
  decide +kernel

theorem test_subjects_atTheirBoundaries :
    (rigAsked 1 2 0).requestReady ∧ rig.subjectOf 1 0 = some (.hoist 0) ∧
      rig.subjectOf 1 2 = some (.hoist 2) ∧ rig.subjectOf 1 3 = none ∧
      rig.subjectOf 1 128 = none ∧ rig.subjectOf 2 0 = some (.group 0) ∧
      rig.subjectOf 2 1 = none ∧ rig.subjectOf 2 32 = none ∧ rig.subjectOf 3 300 = some .all ∧
      (rigGate .bypass).requestReady ∧ (rigAsked 0 0 0).requestReady ∧
      (rigAsked 4 0 0).requestReady := by
  unfold State.requestReady
  decide +kernel

theorem test_power_hypotheses :
    (rigAsked 3 0 2).requestReady ∧ TrussesHeld (rigAsked 3 0 2) ∧
      rigHalted.requestReady ∧ TrussesHeld rigHalted ∧
      [0, 1, 2, 3].map levelOf = [some .off, some .standby, some .run, none] :=
  ⟨⟨by decide +kernel, rfl⟩, trussesHeld_of (by decide +kernel), ⟨by decide +kernel, rfl⟩,
    trussesHeld_of (by decide +kernel), by decide⟩

/-- The rig with both its movers linked in queue 0, the resume point at one of them, and a WITHDRAW
for one captured. -/
def rigResuming (m : Mover) (kind : Word) : State :=
  { rigAsked kind 0 0 with
    pacer := { rig.pacer with
      queues := rig.pacer.queues.set 0
        ⟨some 256, 0, true, [.hoist 0, .group 0], some (.mover m)⟩ } }

/-- A resume point at a mover that leaves, before one that stays and at the end, and one at a mover
that stays: what `ResumesWithout` supposes holds, and where each goes. -/
theorem test_resumePoints_atTheirBoundaries :
    ((rigResuming (.hoist 0) 1).requestReady ∧ (rigResuming (.group 0) 2).requestReady) ∧
      (∀ m kind, ((rigResuming m kind).queue 0).movers = [.hoist 0, .group 0]) ∧
      ((rigResuming (.hoist 0) 1).queue 0).resumeWithout [.hoist 0] = some (.mover (.group 0)) ∧
      ((rigResuming (.group 0) 2).queue 0).resumeWithout [.group 0] = some .tail ∧
      ((rigResuming (.group 0) 1).queue 0).resumeWithout [.hoist 0] = some (.mover (.group 0)) ∧
      ((rigResuming (.hoist 0) 1).queue 0).resumeWithout [.group 0, .hoist 0] = some .tail :=
  ⟨⟨⟨by decide +kernel, rfl⟩, ⟨by decide +kernel, rfl⟩⟩, fun _ _ => rfl, by decide +kernel⟩

/-- A WITHDRAW moves the resume point as the statements say. -/
theorem test_withdraw_movesTheResumePoint :
    leaves (exec .withdraw (rigResuming (.hoist 0) 1))
      (fun t => (t.queue 0).resume = some (.mover (.group 0))) = true := by
  decide +kernel

/-- The rig with slot 1 overloaded and its group HELD. -/
def rigFaulted : State :=
  (rigWith 1 fun h => { h with
    causes := { h.causes with overload := true }, load := some 501 }).updateGroup 0
      fun r => { r with state := .held, causes := ⟨false, true⟩ }

theorem test_clearFault_hypotheses :
    (rigAsked 1 1 0).requestReady ∧ (rigAsked 3 1 0).requestReady ∧
      (rigAsked 2 0 0).requestReady ∧
      (let s := { rigFaulted with port := { rigFaulted.port with arguments := #v[2, 0, 0, 0] } }
       s.requestReady ∧ s.subjectOf 2 s.port.arguments[1] = some (.group 0) ∧
         testGroup.members.find? s.faulted = some 1) ∧
      (rig.updateGroup 0 fun r => { r with state := .held }).requestReady ∧
      testGroup.members.find? rig.faulted = none := by
  unfold State.requestReady
  decide +kernel

theorem still_of {s : State} (h : s.linkedMovers = [])
    (k : ∀ slot : Slot, (s.hoist slot).all (fun h => h.goal = none ∧ h.runDemand = false) = true) :
    StillWhenStopped s := by
  refine fun _ => ⟨h, fun slot x hx => ?_⟩
  have := k slot
  rw [hx] at this
  simpa using this

theorem test_resume_hypotheses :
    State.reset.requestReady ∧ StillWhenStopped State.reset ∧
      rig.requestReady ∧ StillWhenStopped rig ∧
      rigHalted.requestReady ∧ StillWhenStopped rigHalted ∧ rigHalted.halt.latched = true ∧
      (let s := { rigHalted with halt := { rigHalted.halt with channelB := .opened } }
       s.requestReady ∧ StillWhenStopped s) ∧
      (let s := { rigHalted with halt := { rigHalted.halt with cycle := .awaitClose } }
       s.requestReady ∧ StillWhenStopped s) ∧
      (let s := { rigFaulted with
          halt := { rig.halt with latched := true, causes := ⟨false, false, false, true⟩ } }
       s.requestReady ∧ StillWhenStopped s) ∧
      (let s := { rigHalted with loader := { rig.loader with gate := .bypass } }
       s.requestReady ∧ StillWhenStopped s) :=
  ⟨⟨by decide +kernel, rfl⟩, still_of (by decide +kernel) (by decide +kernel),
    ready_rig, still_of (by decide +kernel) (by decide +kernel),
    ⟨by decide +kernel, rfl⟩, still_of (by decide +kernel) (by decide +kernel), rfl,
    ⟨⟨by decide +kernel, rfl⟩, still_of (by decide +kernel) (by decide +kernel)⟩,
    ⟨⟨by decide +kernel, rfl⟩, still_of (by decide +kernel) (by decide +kernel)⟩,
    ⟨⟨by decide +kernel, by decide +kernel⟩, still_of (by decide +kernel) (by decide +kernel)⟩,
    ⟨⟨by decide +kernel, rfl⟩, still_of (by decide +kernel) (by decide +kernel)⟩⟩

theorem test_rateAndTrim_hypotheses :
    (rigAsked 7 256 0).requestReady ∧ (rigAsked 8 1 0).requestReady ∧
      (rigAsked 7 0 0).requestReady ∧ (rigAsked 7 257 0).requestReady ∧
      (rigAsked 0 1 0).requestReady ∧ State.reset.requestReady := by
  unfold State.requestReady
  decide +kernel

theorem test_snapshotStats_hypotheses :
    State.reset.requestReady ∧ rig.requestReady ∧ rig.report.snapshot = .notTaken ∧
      (let s := { rig with report := { rig.report with
          snapshot := .owed ⟨0, 0, Vector.replicate 32 0⟩ } }
       s.requestReady ∧ s.report.snapshot ≠ .notTaken) :=
  ⟨⟨by decide +kernel, rfl⟩, ready_rig, rfl, ⟨by decide +kernel, rfl⟩, by simp⟩

theorem test_requestEvents_hypotheses :
    rig.requestReady ∧ (0 : Word).toNat = 0 ∧ 15 < (16 : Word).toNat ∧
      ∃ (c : Instr) (s : State) (code : Word) (r : Request),
        accessOf c = some (requestAccess code) ∧ s.accepts .processor = true ∧
        s.requests.state = .inHand r :=
  ⟨ready_rig, rfl, by decide,
    ⟨.go, { rig with requests := { rig.requests with state := .inHand ⟨15, #v[0, 0, 0, 0]⟩ } }, 6,
      ⟨15, #v[0, 0, 0, 0]⟩, rfl, by decide +kernel, rfl⟩⟩

/-! ### Hypotheses: completions -/

/-- The rig with an operation in flight. -/
def rigBusy (op : PortOp) : State := { rig with memPort := ⟨some op, .internal⟩ }

theorem test_passThrough_hypotheses :
    (let op : PortOp := ⟨.passThrough .service, 5, .write 5 9, false⟩
     RestsBetweenEvents (rigBusy op) ∧ Memory.wf (rigBusy op).mem) ∧
    (let op : PortOp := ⟨.passThrough .service, 5, .read, true⟩
     RestsBetweenEvents (rigBusy op) ∧ Memory.wf (rigBusy op).mem ∧
       (rigBusy op).port.bus.get .service = []) ∧
    (let a : Access := ⟨.service, 9, .read⟩
     let s := { rigBusy ⟨.passThrough .service, 5, .read, true⟩ with
       port := { rig.port with bus := { rig.port.bus with service := [a] } } }
     RestsBetweenEvents s ∧ Memory.wf s.mem ∧ s.port.bus.get .service = a :: [] ∧
       classify s a = .pass) :=
  ⟨⟨rests_of rfl rfl, by decide⟩, ⟨rests_of rfl rfl, by decide, rfl⟩,
    ⟨rests_of rfl rfl, by decide, rfl, by decide +kernel⟩⟩

/-- A record of slot 0. -/
def testRecord : SetpointRecord := ⟨0, 1000, .powered, .hold, 0⟩

/-- The rig with a record word of a batch in flight. -/
def rigWriting (b : BatchInHand) (following : Option Batch) (owed : List OwedBatch) : State :=
  { rigBusy ⟨.releaseWriter, 0x1003, .write 5 15, true⟩ with
    writer := ⟨.writing, some b, following, owed⟩ }

theorem test_releaseWord_hypotheses :
    (∀ s, s ∈ [rigWriting ⟨5, [testRecord], 3, false⟩ none [],
        rigWriting ⟨5, [testRecord, testRecord], 4, false⟩ none [],
        rigWriting ⟨5, [testRecord], 4, true⟩ (some ⟨6, [testRecord]⟩) [],
        rigWriting ⟨5, [testRecord], 4, false⟩ none [.hold [3], .sync [0]],
        rigWriting ⟨5, [testRecord], 4, false⟩ none []] →
      RestsBetweenEvents s ∧ Memory.wf s.mem ∧ HeldSetpointRead s ∧ OwedSlotsOnce s ∧
        s.writer.state = .writing) ∧
    (let s := { rigWriting ⟨5, [testRecord], 4, false⟩ none [] with
       port := { rig.port with places := { rig.port.places with
         driveLink := .held ⟨.driveLink, 0x1000, .read⟩ } } }
     HeldSetpointRead s ∧ s.memPort.previous = .internal) ∧
    (let s := { rigWriting ⟨5, [testRecord], 4, true⟩ none [] with
       pacer := { rig.pacer with pendingFrame := true } }
     RestsBetweenEvents s ∧ HeldSetpointRead s ∧ OwedSlotsOnce s ∧
       s.writer.state = .writing ∧ s.pacer.pendingFrame = true) := by
  refine ⟨fun s hs => ?_, ⟨⟨rfl, rfl, by decide +kernel⟩, rfl⟩,
    rests_of rfl rfl, trivial, by simp [OwedSlotsOnce, rigWriting], rfl, rfl⟩
  simp only [List.mem_cons, List.not_mem_nil, or_false] at hs
  rcases hs with rfl | rfl | rfl | rfl | rfl <;>
    exact ⟨rests_of rfl rfl, by decide, trivial, by simp [OwedSlotsOnce, rigWriting], rfl⟩

/-- The rig with a word of the Report Writer in flight. -/
def rigReporting (word : ReportWord) (r : ReportWriter) (x : RequestState) : State :=
  { rigBusy ⟨.reportWriter, 0x4000, .write 5 15, true⟩ with
    report := { r with claim := some ⟨word, 0x4000, 5⟩ }
    requests := { rig.requests with state := x } }

theorem test_reportWord_hypotheses :
    (∀ s, s ∈ [rigReporting .faultRecord { rig.report with
          queue := [⟨.notice .goalFormat, none, 0, 0⟩]
          recordWrite := some ⟨1, ⟨0x4000, 16⟩, 15, 3⟩ } .idle,
        rigReporting (.mirror 0 true) rig.report (.closing ⟨5, #v[0, 0, 0, 0]⟩
          ((Vector.replicate 16 false).set 0 true)),
        rigReporting .snapshot { rig.report with
          snapshot := .writing ⟨0, 0, Vector.replicate 32 0⟩ 62, statsRequest := .own }
          (.inHand ⟨15, #v[0, 0, 0, 0]⟩),
        rigReporting .snapshot { rig.report with
          snapshot := .writing ⟨0, 0, Vector.replicate 32 0⟩ 63, statsRequest := .own }
          (.inHand ⟨15, #v[0, 0, 0, 0]⟩),
        rigReporting .snapshot { rig.report with
          snapshot := .writing ⟨0, 0, Vector.replicate 32 0⟩ 63, statsRequest := .afterCurrent }
          (.inHand ⟨15, #v[0, 0, 0, 0]⟩)] →
      RestsBetweenEvents s ∧ Memory.wf s.mem ∧ s.memPort.op.any (fun op => op.live)) := by
  intro s hs
  simp only [List.mem_cons, List.not_mem_nil, or_false] at hs
  rcases hs with rfl | rfl | rfl | rfl | rfl <;>
    exact ⟨⟨by simp [rigReporting], by simp [rigReporting, rigBusy, rig]⟩, by decide, rfl⟩

/-! ### Hypotheses: the free port and the Report Writer's choice -/

/-- The rig with a free port after a grant of a kind, two accesses waiting, the Rig Loader reading
and the other internal claimants as given. -/
def rigFree (previous : Grant) (order : List Mid) (hand : Option BatchInHand)
    (claim : Option ReportClaim) : State :=
  { rig with
    memPort := ⟨none, previous⟩
    port := { rig.port with
      places := { rig.port.places with
        auxiliary := .waiting ⟨.auxiliary, 9, .read⟩
        driveLink := .waiting ⟨.driveLink, 0x1000, .read⟩ }
      order := order }
    writer := ⟨if hand.isSome then .starting else .idle, hand, none, []⟩
    report := { rig.report with claim := claim }
    loader := { rig.loader with phase := .reading 0x57F } }

theorem waits_rigFree (previous : Grant) (order : List Mid) (claim : Option ReportClaim) :
    ReleaseWordWaits (rigFree previous order (some ⟨5, [testRecord], 0, false⟩) claim) :=
  ⟨_, rfl, by simp, by decide⟩

theorem waitsNot_rigFree (previous : Grant) (order : List Mid) (claim : Option ReportClaim) :
    ¬ReleaseWordWaits (rigFree previous order none claim) := by
  rintro ⟨b, hb, -⟩
  cases hb

/-- Each clause of `FreePortGranted` has a state that meets its premises. -/
theorem test_freePort_hypotheses :
    (rig.port.order = [] ∧ rig.memPort.op = none ∧ rig.report.claim = none ∧
      ∀ n, rig.loader.phase ≠ .reading n) ∧
    (let s := rigFree .internal [.auxiliary, .driveLink] (some ⟨5, [testRecord], 0, false⟩) none
     s.memPort.op = none ∧ s.port.order = .auxiliary :: [.driveLink] ∧
       s.port.places.get .auxiliary = .waiting ⟨.auxiliary, 9, .read⟩ ∧
       s.memPort.previous = .internal) ∧
    (let s := { rigFree .passThrough [.driveLink] none none with loader := rig.loader }
     s.port.places.get .driveLink = .waiting ⟨.driveLink, 0x1000, .read⟩ ∧
       s.report.claim = none ∧ ∀ n, s.loader.phase ≠ .reading n) ∧
    (let s := rigFree .passThrough [.driveLink] (some ⟨5, [testRecord], 0, false⟩) none
     s.memPort.op = none ∧ s.memPort.previous = .passThrough ∧
       s.inSetpointArea 0x1000 = true) ∧
    (let s := rigFree .internal [] none (some ⟨.mirror 7 false, 0x3FFF17, 5⟩)
     s.memPort.op = none ∧ s.port.order = [] ∧ s.report.claim ≠ none) ∧
    (let s := rigFree .passThrough [.driveLink] none none
     s.report.claim = none ∧ s.loader.phase = .reading 0x57F) :=
  ⟨⟨rfl, rfl, rfl, by simp [rig, Loader.reset]⟩, ⟨rfl, rfl, rfl, rfl⟩,
    ⟨rfl, rfl, by simp [rig, Loader.reset]⟩, ⟨rfl, rfl, by decide +kernel⟩,
    ⟨rfl, rfl, by simp [rigFree]⟩, ⟨rfl, rfl⟩⟩

theorem test_portOrder_hypotheses :
    (let s := rigBusy ⟨.rigLoader, 5, .read, true⟩
     RestsBetweenEvents s ∧ s.accepts .service = true ∧
       classify s ⟨.service, 9, .read⟩ = .pass ∧ s.memPort.op ≠ none) ∧
    (let s := { rigInReset with
       memPort := ⟨some ⟨.rigLoader, 5, .read, false⟩, .internal⟩
       port := { rigInReset.port with bus := { rigInReset.port.bus with
         service := [⟨.service, 9, .read⟩], processor := [⟨.processor, 0x3FEFFF, .read⟩] } } }
     s.lines.reset = true ∧ RestsBetweenEvents s ∧ AccessesWithTheirMasters s ∧
       s.port.places = .all .empty ∧ s.port.order = [] ∧ s.memPort.op ≠ none ∧ s.regions = [] ∧
       ∀ m, ∀ a ∈ s.port.bus.get m, a.addr.toNat < 0x3FF000) := by
  refine ⟨⟨rests_of rfl rfl, by decide +kernel, by decide +kernel, by simp [rigBusy]⟩, rfl,
    ⟨by simp [rigInReset, State.reset], fun _ => ⟨rfl, rfl, ?_⟩⟩, fun m => ⟨fun a ha => ?_, ?_⟩,
    rfl, rfl, by simp, rfl, ?_⟩
  · simp
  · cases m <;> simp [rigInReset, State.reset, ControllerPort.reset, PerMid.all, PerMid.get] at ha
  · cases m <;> simp [rigInReset, State.reset, ControllerPort.reset, PerMid.all, PerMid.get]
  · intro m
    cases m <;> simp [rigInReset, State.reset, ControllerPort.reset, PerMid.all, PerMid.get]

/-- Each branch of the Report Writer's choice is met, and the claim or an own operation in flight
keeps it from choosing. -/
theorem test_reportChoice_hypotheses :
    (∀ s, s ∈ [
        { rig with report := { rig.report with queue := [⟨.notice .goalFormat, none, 0, 0⟩] } },
        { rig with report := { rig.report with
          queue := [⟨.notice .goalFormat, none, 0, 0⟩], nextSequence := 4294967295
          recordWrite := some ⟨1, ⟨0x4000, 16⟩, 15, 3⟩ } },
        rig,
        { rig with report := { rig.report with
          dirty := Vector.replicate 16 false, snapshot := .owed ⟨1, 2, Vector.replicate 32 0⟩ } },
        { rig with report := { rig.report with
          dirty := Vector.replicate 16 false
          snapshot := .writing ⟨1, 2, Vector.replicate 32 0⟩ 63 } },
        { rig with report := { rig.report with dirty := Vector.replicate 16 false } }] →
      s.report.claim = none ∧ ∀ op, s.memPort.op = some op → op.claimant ≠ .reportWriter) ∧
    (rigReporting (.mirror 0 true) rig.report .idle).report.claim ≠ none ∧
    (∃ op, (rigBusy ⟨.reportWriter, 0x4000, .write 5 15, true⟩).memPort.op = some op ∧
      op.claimant = .reportWriter) ∧
    (∀ i : Fin 16, rig.report.dirty[i] = true) := by
  refine ⟨fun s hs => ?_, by simp [rigReporting], ⟨_, rfl, rfl⟩, by decide +kernel⟩
  simp only [List.mem_cons, List.not_mem_nil, or_false] at hs
  rcases hs with rfl | rfl | rfl | rfl | rfl | rfl <;>
    exact ⟨rfl, by simp [rig, State.reset]⟩

/-! ### Hypotheses: loads -/

/-- A load in hand. -/
def rigLoading (phase : LoadPhase) (candidate : List Word) : State :=
  { State.reset with
    loader := { Loader.reset with
      gate := .loading, phase := phase, candidate := candidate, result := .inProgress }
    memPort := ⟨some ⟨.rigLoader, 0x3FF57F, .read, true⟩, .internal⟩
    requests := { State.reset.requests with state := .inHand ⟨1, #v[0, 0, 0, 0]⟩ } }

theorem rests_rigLoading (phase : LoadPhase) (ws : List Word) :
    RestsBetweenEvents (rigLoading phase ws) :=
  ⟨by simp [rigLoading], by simp [rigLoading, State.reset]⟩

theorem test_loadWord_hypotheses :
    (∃ s op, RestsBetweenEvents s ∧ s.memPort.op = some op ∧ op.claimant = .rigLoader ∧
      op.op = .read ∧ op.live = true ∧ s.loader.phase = .reading 0x57E) ∧
    ∃ s op, RestsBetweenEvents s ∧ s.memPort.op = some op ∧ op.claimant = .rigLoader ∧
      op.op = .read ∧ op.live = true ∧ s.loader.phase = .reading 0x57F :=
  ⟨⟨rigLoading (.reading 0x57E) [], _, rests_rigLoading .., rfl, rfl, rfl, rfl, rfl⟩,
    ⟨rigLoading (.reading 0x57F) [], _, rests_rigLoading .., rfl, rfl, rfl, rfl, rfl⟩⟩

/-- Words that hold nothing. -/
def zeros (n : Nat) : List Word := List.replicate n 0

/-- An entry of eight words that is not in use, at its own number. -/
def emptyEntry (n : Nat) : List Word := zeros 7 ++ [BitVec.ofNat 32 n]

/-- The header of a rig of one hoist, with a checksum word. -/
def testHeader (checksum : Word) : List Word :=
  [0x52494731, checksum, 4, 400001, 0, 1, 12, 5, 0, 8, 1, 0, 0, 0, 0, 0]

/-- What follows the header: queue 0 at full rate, six regions side by side, a grid of one cell that
names slot 0, a password of one word four times, no group and slot 0 alone. -/
def testSections (key : Word) : List Word :=
  ([256] ++ zeros 7) ++ ([0, 512, 1024, 1040, 16, 1104] ++ zeros 18) ++
    ([1, 1, 0, 0, 0xFFFFFF00] ++ List.replicate 63 0xFFFFFFFF) ++
    (List.replicate 4 key ++ zeros 8) ++ ((List.range 32).flatMap emptyEntry) ++
    ([0x3210FF01, 0, 4000, 0x000001F4, 0x01900064, 0x00010002, 0, 0] ++
      ((List.range 127).flatMap fun n => emptyEntry (n + 1)))

/-- A block that passes every step. -/
def testBlock (key : Word) : List Word :=
  testHeader (0 - wordSum (testHeader 0 ++ testSections key)) ++ testSections key

theorem test_testBlock_valid :
    validate (rigBlock (testBlock 0)) = none ∧ validate (rigBlock (testBlock 0xFFFFFFFF)) = none ∧
      validate (rigBlock (testBlock 5)) = none := by
  decide +kernel

theorem test_blockFields_hypotheses :
    (testBlock 0).length = 1408 ∧ (zeros 1408).length = 1408 ∧
      validate (rigBlock (zeros 1408)) = some (.badMagic, ⟨.header, 0⟩) := by
  decide +kernel

/-- A load at its last moment, with a held write of the processor and others behind it on the bus.
-/
def rigEnding (key : Word) (bus : List Access) : State :=
  let s := rigLoading .validating (testBlock key)
  { s with port := { s.port with
      places := { s.port.places with processor := .held ⟨.processor, 0x3FF000, .write 5 15⟩ }
      bus := { s.port.bus with processor := bus } } }

theorem throughLoad_rigEnding (key : Word) (bus : List Access) (h : ∀ a ∈ bus, a.mid = .processor) :
    HeldThroughLoad (rigEnding key bus) :=
  ⟨⟨rfl, by simp, by decide, by decide⟩, h, trivial⟩

theorem throughLoad_rigLoading (ws : List Word) : HeldThroughLoad (rigLoading .validating ws) :=
  ⟨rfl, by simp [rigLoading, State.reset, ControllerPort.reset, PerMid.all], trivial⟩

theorem test_failedValidation_hypotheses :
    ∃ s step d r, s.lines.reset = false ∧ s.loader.phase = .validating ∧
      s.requests.state = .inHand r ∧ HeldThroughLoad s ∧
      validate (rigBlock s.loader.candidate) = some (step, d) :=
  ⟨rigLoading .validating [], .badMagic, ⟨.header, 0⟩, _, rfl, rfl, rfl, throughLoad_rigLoading _,
    by decide +kernel⟩

theorem test_passedValidation_hypotheses :
    ∀ s, s ∈ [rigLoading .validating (testBlock 0),
        rigEnding 0xFFFFFFFF [⟨.processor, 5, .write 5 15⟩],
        rigEnding 0 [⟨.processor, 0x3FF57F, .write 5 15⟩],
        rigEnding 5 [⟨.processor, 0x3FF57F, .write 5 15⟩, ⟨.processor, 5, .read⟩]] →
      ∃ r, s.lines.reset = false ∧ s.loader.phase = .validating ∧ s.loader.gate = .loading ∧
        s.requests.state = .inHand r ∧ HeldThroughLoad s ∧
        validate (rigBlock s.loader.candidate) = none := by
  intro s hs
  have k := test_testBlock_valid
  simp only [List.mem_cons, List.not_mem_nil, or_false] at hs
  rcases hs with rfl | rfl | rfl | rfl
  · exact ⟨_, rfl, rfl, rfl, rfl, throughLoad_rigLoading _, k.1⟩
  · exact ⟨_, rfl, rfl, rfl, rfl, throughLoad_rigEnding _ _ (by simp), k.2.1⟩
  · exact ⟨_, rfl, rfl, rfl, rfl, throughLoad_rigEnding _ _ (by simp), k.1⟩
  · exact ⟨_, rfl, rfl, rfl, rfl, throughLoad_rigEnding _ _ (by simp), k.2.2⟩

theorem test_heldWrites_closedLoad :
    ∀ a ∈ (rigEnding 0 [⟨.processor, 0x3FF57F, .write 5 15⟩]).heldWrites, ConfigurationWrite a := by
  intro a ha
  have ha' : a = ⟨.processor, 0x3FF000, .write 5 15⟩ ∨ a = ⟨.processor, 0x3FF57F, .write 5 15⟩ := by
    simpa [State.heldWrites, rigEnding] using ha
  rcases ha' with rfl | rfl <;> exact ⟨rfl, by simp, by decide, by decide⟩

/-! ### Hypotheses: frames, counts and lines -/

theorem test_frame_hypotheses :
    RestsBetweenEvents rig ∧ RestsBetweenEvents rigInReset ∧ rigInReset.lines.reset = true ∧
      (∀ n, n < 9 → RestsBetweenEvents { rig with
        halt := { rig.halt with channelA := .opened, discrepancy := n } }) ∧
      RestsBetweenEvents { rig with
        writer := ⟨.starting, some ⟨5, [testRecord], 0, false⟩, none, []⟩ } ∧
      RestsBetweenEvents (rigGate .bypass) ∧
      ((rig.report.frameCount + 1).toNat % 16 = 1 ∧ rig.report.snapshot = .notTaken ∧
        rig.report.cadence = some (1, 0)) :=
  ⟨rests_rig, ⟨by simp [rigInReset, State.reset], fun _ => ⟨rfl, rfl, by simp [rigInReset,
    State.reset]⟩⟩, rfl, fun _ _ => rests_of rfl rfl, rests_of rfl rfl, rests_of rfl rfl,
    by decide +kernel, rfl, rfl⟩

theorem quiet_of {s : State}
    (k : ∀ slot : Slot, (s.hoist slot).all (fun h =>
      !s.lastConfirm h && decide (h.age < s.statusTimeout.getD 0)) = true)
    (c : s.halt.channelA = s.halt.channelB ∨ s.halt.discrepancy ≠ 7 ∨ s.halt.latched = true) :
    QuietFrame s := ⟨fun _ _ e => by simpa using every_hoist k e, c⟩

/-- The rig with its group HELD and a count of its hold left. -/
def rigCounting (n : Nat) : State :=
  rig.updateGroup 0 fun r => { r with state := .held, retry := n }

theorem test_frameInGuard_hypotheses :
    RestsBetweenEvents rig ∧ QuietFrame rig ∧ rig.writer.state = .idle ∧
      rig.pacer.frozen = false ∧
    (let s := rigWriting ⟨5, [testRecord], 1, false⟩ none []
     RestsBetweenEvents s ∧ QuietFrame s ∧ s.writer.state ≠ .idle) ∧
    (let s := { rig with pacer := { rig.pacer with frozen := true } }
     RestsBetweenEvents s ∧ QuietFrame s) ∧
    (∀ n, n ∈ [0, 1, 2] →
      (rigCounting n).group 0 = some { testGroup with state := .held, retry := n }) ∧
    (∀ m ∈ testGroup.members, ((rigCounting 1).hoist m).all (rigCounting 1).takesNoCause = true) ∧
    (∀ n, n ∈ [0, 1, 2] → TrussesHeld (rigCounting n)) ∧
    (let s := rigWith 1 fun h => { h with age := 12 }
     TrussesHeld s ∧ s.group 0 = some testGroup ∧ 1 ∈ testGroup.members ∧
       (s.hoist 1).any s.takesCause = true) := by
  refine ⟨rests_rig, quiet_of (by decide +kernel) (Or.inl rfl), rfl, rfl,
    ⟨rests_of rfl rfl, quiet_of (by decide +kernel) (Or.inl rfl), by simp [rigWriting]⟩,
    ⟨rests_of rfl rfl, quiet_of (by decide +kernel) (Or.inl rfl)⟩, fun n hn => ?_,
    by decide +kernel, fun n hn => trussesHeld_of ?_, trussesHeld_of (by decide +kernel),
    by decide +kernel, by decide, by decide +kernel⟩ <;>
  · simp only [List.mem_cons, List.not_mem_nil, or_false] at hn
    rcases hn with rfl | rfl | rfl <;> decide +kernel

/-- A mover that fits and one that does not, one to pass over and one with no goal left, each met
by a walk. -/
def rigWalking : State :=
  { (rigWith 0 fun h => { h with power := .run, goal := some 1100 }).updateHoist 1
      fun h => { h with goal := some 1100 } with
    pacer := { rig.pacer with
      queues := (rig.pacer.queues.set 0
        ⟨some 256, 0, true, [.hoist 0], some (.mover (.hoist 0))⟩).set 4
          ⟨some 256, 0, true, [.group 0], none⟩ } }

theorem test_walks_hypotheses :
    MoversOnce rigWalking ∧
      ((rigWalking.moverSlots (.hoist 0)).any rigWalking.hasGoalLeft = true ∧
        (rigWalking.moverSlots (.hoist 0)).any rigWalking.keepsMoverBack = false) ∧
      ((rigWalking.moverSlots (.group 0)).any rigWalking.hasGoalLeft = true ∧
        (rigWalking.moverSlots (.group 0)).any rigWalking.keepsMoverBack = true) ∧
      (rig.moverSlots (.hoist 0)).any rig.hasGoalLeft = false ∧
      (rigWalking.queue 0).resume = some (.mover (.hoist 0)) ∧
      Mover.hoist 0 ∈ (rigWalking.queue 0).movers ∧ (rigWalking.queue 4).resume = none ∧
      (walk 0 (rigWalking.queue 0).walkFrom ⟨⟨rigWalking, 0, [], false⟩, [], none⟩).stop =
        some (.hoist 0) ∧
      (walk 0 (rigWalking.queue 0).walkFrom ⟨⟨rigWalking, 1, [], false⟩, [], none⟩).stop = none ∧
      ∀ j : Fin 4, (rigWalking.queue (Bank.queue .a j)).resume ≠ none → j = 0 := by
  unfold MoversOnce
  decide +kernel

theorem test_hoistCounted_hypotheses :
    ∃ (s : State) (slot : Slot) (h : Hoist), s.hoist slot = some h ∧
      s.lastConfirm h = false ∧ h.age < s.statusTimeout.getD 0 :=
  ⟨rig, 0, testHoist none 0, by decide +kernel, by decide +kernel, by decide +kernel⟩

theorem test_paceRecords_hypotheses :
    let s := (rigWith 1 fun h => { h with power := .run, goal := some 1400 }).updateHoist 2
      fun h => { h with power := .run, goal := some 1401 }
    (s.moverSlots (.group 0)).head? = some 1 ∧ (s.moverSlots (.group 0)).Nodup ∧
      (∀ k ∈ s.moverSlots (.group 0), ∃ h, s.hoist k = some h ∧ h.power = .run) ∧
      s.moverStep (.group 0) = 50 := by
  refine ⟨by decide +kernel, by decide +kernel, fun k hk => ?_, by decide +kernel⟩
  have hk' : k = 1 ∨ k = 2 := by
    have e : ((rigWith 1 fun h => { h with power := .run, goal := some 1400 }).updateHoist 2
      fun h => { h with power := .run, goal := some 1401 }).moverSlots (.group 0) = [1, 2] := by
      decide +kernel
    rw [e] at hk
    simpa using hk
  rcases hk' with rfl | rfl
  · exact ⟨{ testHoist (some 0) 4 with power := .run, goal := some 1400 }, by decide +kernel, rfl⟩
  · exact ⟨{ testHoist (some 0) 4 with power := .run, goal := some 1401 }, by decide +kernel, rfl⟩

/-- The rig with its group MOVING and slot 2 off its place. -/
def rigSpread (measured : Int) : State :=
  (rigWith 2 fun h => { h with measured := some measured }).updateGroup 0
    fun r => { r with state := .moving }

theorem test_spread_hypotheses :
    (∀ n, n ∈ [1090, 1091] → TrussesHeld (rigSpread n) ∧ (rigSpread n).loader.gate = .guard) ∧
      (rigSpread 1090).group 0 = some { testGroup with state := .moving } ∧
      (∀ m ∈ testGroup.members, (rigSpread 1090).syncedAt m = true) ∧
      SpreadIs (rigSpread 1090) testGroup.members 90 ∧
      SpreadIs (rigSpread 1091) testGroup.members 91 := by
  refine ⟨fun n hn => ?_, by decide +kernel, by decide +kernel, ?_, ?_⟩
  · simp only [List.mem_cons, List.not_mem_nil, or_false] at hn
    rcases hn with rfl | rfl <;> exact ⟨trussesHeld_of (by decide +kernel), rfl⟩
  · exact ⟨⟨2, by decide, 1, by decide, by decide +kernel⟩, by decide +kernel⟩
  · exact ⟨⟨2, by decide, 1, by decide, by decide +kernel⟩, by decide +kernel⟩

theorem test_servicesDue_hypotheses :
    RestsBetweenEvents rig ∧ rig.serviceDue 0 = true ∧ rig.serviceDue 1 = false ∧
      rig.atCadencePoint = true ∧
      { rig with report := { rig.report with frameCount := 1 } }.atCadencePoint = false :=
  ⟨rests_rig, by decide +kernel⟩

theorem test_lastCounts_hypotheses :
    RestsBetweenEvents rig ∧ rig.lines.reset = false ∧
      (rigWith 0 fun h => { h with power := .releasing, delay := 1 }).windowOpens 0 = true ∧
      (rigWith 0 fun h => { h with settle := 1 }).settleRunsOut 0 = true ∧
      (rigWith 0 fun h => { h with power := .run, sinceStep := 8 }).parks 0 = true ∧
      (rigWith 0 fun h => { h with power := .run, sinceStep := 7 }).parks 0 = false ∧
      (rig.updateGroup 0 fun r => { r with state := .held, retry := 1 }).retryRunsOut 0 = true :=
  ⟨rests_rig, by decide +kernel⟩

theorem rests_rigWith (slot : Slot) (f : Hoist → Hoist) : RestsBetweenEvents (rigWith slot f) := by
  refine rests_of ?_ ?_
  · show (rig.updateHoist slot f).requests.state = .idle
    rw [Laws.updateHoist_requests]; rfl
  · show (rig.updateHoist slot f).lines.reset = false
    rw [Laws.updateHoist_lines]; rfl

/-- A hoist that waits for a confirmation. -/
def unconfirmed (p : PowerState) (n : Nat) (r : Option Drive) (c : HoistCauses) : Hoist :=
  { testHoist none 0 with power := p, confirm := n, reported := r, causes := c }

/-- A hoist of the given age. -/
def silent (group : Option GroupNo) (p : PowerState) (n : Nat) (c : HoistCauses) : Hoist :=
  { testHoist group 0 with power := p, age := n, causes := c }

theorem test_confirmTimeout_hypotheses :
    ∀ h, h ∈ [unconfirmed .waking 4 none .empty, unconfirmed .releasing 4 (some .off) .empty,
        unconfirmed .waking 5 none { HoistCauses.empty with confirmTimeout := true },
        unconfirmed .releasing 4 none { HoistCauses.empty with slack := true }] →
      ∃ s, RestsBetweenEvents s ∧ TrussesHeld s ∧ s.lines.reset = false ∧
        s.loader.gate = .guard ∧ s.hoist 0 = some h ∧ s.lastConfirm h = true := by
  intro h hh
  refine ⟨rigWith 0 fun _ => h, rests_rigWith _ _, trussesHeld_of ?_, ?_, ?_, ?_, ?_⟩
  · simp only [List.mem_cons, List.not_mem_nil, or_false] at hh
    rcases hh with rfl | rfl | rfl | rfl <;> decide +kernel
  · show (rig.updateHoist 0 _).lines.reset = false
    rw [Laws.updateHoist_lines]; rfl
  · show (rig.updateHoist 0 _).loader.gate = .guard
    rw [Laws.updateHoist_loader]; rfl
  · show (rig.updateHoist 0 _).hoist 0 = some h
    have e : rig.hoist 0 = some (testHoist none 0) := by decide +kernel
    simp [e]
  · simp only [List.mem_cons, List.not_mem_nil, or_false] at hh
    rcases hh with rfl | rfl | rfl | rfl <;> decide +kernel

theorem test_statusLost_hypotheses :
    ∀ k : Slot × Hoist, k ∈ [(0, silent none .standby 12 .empty),
        (1, silent (some 0) .run 12 .empty),
        (0, silent none .standby 13 { HoistCauses.empty with statusLost := true }),
        (0, silent none .standby 12 { HoistCauses.empty with slack := true })] →
      ∃ s, RestsBetweenEvents s ∧ TrussesHeld s ∧ s.lines.reset = false ∧
        s.loader.gate = .guard ∧ s.hoist k.1 = some k.2 ∧
        s.statusTimeout.getD 0 ≤ k.2.age := by
  intro k hk
  refine ⟨rigWith k.1 fun _ => k.2, rests_rigWith _ _, trussesHeld_of ?_, ?_, ?_, ?_, ?_⟩
  · simp only [List.mem_cons, List.not_mem_nil, or_false] at hk
    rcases hk with rfl | rfl | rfl | rfl <;> decide +kernel
  · show (rig.updateHoist _ _).lines.reset = false
    rw [Laws.updateHoist_lines]; rfl
  · show (rig.updateHoist _ _).loader.gate = .guard
    rw [Laws.updateHoist_loader]; rfl
  · simp only [List.mem_cons, List.not_mem_nil, or_false] at hk
    rcases hk with rfl | rfl | rfl | rfl <;> decide +kernel
  · simp only [List.mem_cons, List.not_mem_nil, or_false] at hk
    rcases hk with rfl | rfl | rfl | rfl <;> decide +kernel

/-- The rig with its stop lines, channels following. -/
def rigStops (a b : ChannelState) (reset : Bool) : State :=
  { (if reset then State.reset else rig) with
    halt := { (if reset then State.reset else rig).halt with channelA := a, channelB := b }
    lines := { (if reset then State.reset else rig).lines with
      stopA := a, stopB := b, reset := reset } }

theorem test_stopChannels_hypotheses :
    RestsBetweenEvents (rigStops .closed .closed false) ∧
      ChannelsFollowLines (rigStops .closed .closed false) ∧
      RestsBetweenEvents (rigStops .opened .closed false) ∧
      ChannelsFollowLines (rigStops .opened .closed false) ∧
      RestsBetweenEvents (rigStops .opened .closed true) ∧
      ChannelsFollowLines (rigStops .opened .closed true) :=
  ⟨rests_of rfl rfl, fun _ => ⟨rfl, rfl⟩, rests_of rfl rfl, fun _ => ⟨rfl, rfl⟩,
    ⟨by simp [rigStops, State.reset], fun _ => ⟨rfl, rfl, by simp [rigStops, State.reset]⟩⟩,
    fun _ => ⟨rfl, rfl⟩⟩

theorem test_stopDiscrepancy_hypotheses :
    ∃ s, RestsBetweenEvents s ∧ s.lines.reset = false ∧ s.halt.channelA ≠ s.halt.channelB ∧
      s.halt.discrepancy = 7 :=
  ⟨{ rig with halt := { rig.halt with channelA := .opened, discrepancy := 7 } }, rests_of rfl rfl,
    rfl, by decide, rfl⟩

/-- A part under RESET with a status word of the drive link on the bus, and one with a region left
over in it and an empty bus. -/
theorem test_reset_hypotheses :
    rig.lines.reset = false ∧ rigInReset.lines.reset = true ∧ RestsBetweenEvents rigInReset ∧
      (∀ m, rigInReset.port.bus.get m = []) ∧
    (let s := { rigInReset with port := { rigInReset.port with bus :=
       { rigInReset.port.bus with driveLink := [⟨.driveLink, 0x2003, .write 3 15⟩] } } }
     s.lines.reset = true ∧ RestsBetweenEvents s ∧ BlankUnlessInstalled s) ∧
    (let s := { rigInReset with regions := rig.regions }
     s.lines.reset = true ∧ RestsBetweenEvents s ∧ ∀ m, s.port.bus.get m = []) := by
  have k : rigInReset.requests.state = .idle ∧ rigInReset.loader.gate = .unconfigured ∧
      rigInReset.loader.phase = .idle ∧ rigInReset.memPort.op = none := ⟨rfl, rfl, rfl, rfl⟩
  have rests : ∀ s : State, s.requests = rigInReset.requests → s.loader = rigInReset.loader →
      s.memPort = rigInReset.memPort → RestsBetweenEvents s := fun s r l p =>
    ⟨by simp [r, k], fun _ => ⟨by simp [l, k], by simp [l, k], by simp [p, k]⟩⟩
  refine ⟨rfl, rfl, rests _ rfl rfl rfl, fun m => by cases m <;> rfl,
    ⟨rfl, rests _ rfl rfl rfl, fun _ => ⟨rfl, fun slot => ?_, fun g => ?_, rfl, rfl, rfl, ?_⟩⟩,
    rfl, rests _ rfl rfl rfl, fun m => by cases m <;> rfl⟩
  · simp [rigInReset, State.reset, State.hoist]
  · simp [rigInReset, State.reset, State.group]
  · decide +kernel

/-! ### Hypotheses: invariants -/

/-- The rig with a command at the front of its queue. -/
def rigNext : State := { rig with pending := [.lock] }

theorem test_invariants_hypotheses :
    (∃ t, step rigNext = .next t) ∧ Memory.wf rigNext.mem ∧ CommandsFollowPower rigNext ∧
      QueueBounded rigNext ∧ LockFollowsGate rigNext ∧ StagingSound rigNext ∧
      ReadsWhole rigNext ∧ RestsBetweenEvents rigNext ∧ BrakedUnlessEnabled rigNext ∧
      StillWhenStopped rigNext ∧ TrussesHeld rigNext ∧ RatesInRange rigNext ∧
      MoversOnce rigNext ∧ ResumePointsSound rigNext ∧ OwedSlotsOnce rigNext ∧
      HaltCausesSound rigNext ∧ ChannelsFollowLines rigNext ∧ LinesShow rigNext ∧
      RegionsApart rigNext := by
  refine ⟨⟨_, rfl⟩, by decide, followPower_of (by decide +kernel),
    by unfold QueueBounded; decide +kernel, by unfold LockFollowsGate; decide +kernel,
    stagingSound_nil rfl, ⟨fun h => absurd h (by decide), fun h => absurd rfl h, fun _ => rfl,
      fun h => absurd h (by decide)⟩,
    rests_of rfl rfl, fun _ h => absurd h (by decide +kernel),
    still_of (by decide +kernel) (by decide +kernel), trussesHeld_of (by decide +kernel),
    by unfold RatesInRange; decide +kernel, by unfold MoversOnce; decide +kernel,
    ⟨fun bank => by cases bank <;> decide +kernel, by decide +kernel,
      fun h => absurd h (by decide)⟩,
    fun o ho => absurd ho List.not_mem_nil, by unfold HaltCausesSound; decide +kernel,
    fun _ => ⟨rfl, rfl⟩,
    ⟨by decide +kernel, by decide +kernel, fun m => by cases m <;> decide +kernel⟩,
    regionsApart_rig⟩

theorem test_portInvariants_hypotheses :
    let s := { rigNext with port := { rigNext.port with
      places := { rigNext.port.places with driveLink := .held ⟨.driveLink, 0x1000, .read⟩ } } }
    (∃ t, step s = .next t) ∧ AccessesWithTheirMasters s ∧ HeldSetpointRead s := by
  refine ⟨⟨_, rfl⟩, fun m => ⟨fun a ha => ?_, ?_⟩, ⟨rfl, rfl, by decide +kernel⟩⟩
  · cases m <;>
      simp [rigNext, rig, State.reset, ControllerPort.reset, PerMid.all, PerMid.get] at ha
    subst ha; rfl
  · cases m <;>
      simp [rigNext, rig, State.reset, ControllerPort.reset, PerMid.all, PerMid.get]

theorem test_step_hypotheses :
    (∃ (c : Instr) (rest : List Instr) (s : State), s.pending = c :: rest) ∧
      State.reset.pending = [] :=
  ⟨⟨.lock, [], { rig with pending := [.lock] }, rfl⟩, rfl⟩

end Sys2Proof.Tests
end

section
/-! SUPPORT. RESET and its release (01 R4; 09 R147): what the accesses that stood on the bus come to
when they are taken with no configuration installed. -/

namespace Sys2Proof.Proofs

open Sys2Proof.Machine Sys2Proof.Laws

/-! ### A part with no configuration installed -/

/-- No slot holds a hoist. -/
def NoHoists (s : State) : Prop := ∀ slot, s.hoist slot = none

/-- What a part with no configuration installed keeps while it takes accesses: the gate stays shut,
the line levels stand, and with no hoist to fault the halt stands too. -/
structure StaysUninstalled (s t : State) : Prop where
  gate : t.loader.gate.installed = false
  levels : samePart s t .lineLevels
  hoistless : NoHoists s → NoHoists t ∧ t.halt = s.halt

theorem StaysUninstalled.trans {s t u : State} (h : StaysUninstalled s t)
    (k : StaysUninstalled t u) : StaysUninstalled s u where
  gate := k.gate
  levels := samePart_trans h.levels k.levels
  hoistless hs :=
    have ⟨ht, e⟩ := h.hoistless hs
    have ⟨hu, e'⟩ := k.hoistless ht
    ⟨hu, e'.trans e⟩

theorem noHoists_congr {s t : State} (e : t.hoists = s.hoists) (h : NoHoists s) : NoHoists t := by
  intro slot
  rw [State.hoist, e]
  exact h slot

/-- An operation whose frame leaves out the loader, the hoists, the halt and the line levels. -/
theorem staysUninstalled_of_keeps {ch : List Part} {s t : State}
    (hs : s.loader.gate.installed = false) (k : KeepsAllBut ch s t)
    (hch : ∀ p ∈ [Part.loader, .hoists, .halt, .lineLevels], p ∉ ch := by decide) :
    StaysUninstalled s t := by
  have loader : t.loader = s.loader := k.same .loader (hch _ (by decide))
  have hoists : t.hoists = s.hoists := k.same .hoists (hch _ (by decide))
  have halt : t.halt = s.halt := k.same .halt (hch _ (by decide))
  exact ⟨by rw [loader]; exact hs, k.same .lineLevels (hch _ (by decide)),
    fun h => ⟨noHoists_congr hoists h, halt⟩⟩

theorem not_guard_of_uninstalled {s : State} (h : s.loader.gate.installed = false) :
    s.loader.gate ≠ .guard := by
  intro e; rw [e] at h; cases h

theorem not_bypass_of_uninstalled {s : State} (h : s.loader.gate.installed = false) :
    s.loader.gate ≠ .bypass := by
  intro e; rw [e] at h; cases h

/-! ### Requests with no configuration installed -/

/-- A LOAD leaves no configuration installed: it tears down what there is and reads a new one. -/
theorem staysUninstalled_beginLoad (s : State) : StaysUninstalled s (beginLoad s) := by
  have torn : StaysUninstalled s { teardown s with loader := { (teardown s).loader with
      gate := .loading, phase := .reading 0, result := .inProgress, detail := none } } :=
    ⟨rfl, ⟨rfl, rfl, rfl⟩, fun _ => ⟨fun slot => by simp [State.hoist, teardown], rfl⟩⟩
  exact torn.trans (staysUninstalled_of_keeps torn.gate (keeps_reclassify ..))

theorem staysUninstalled_answer {s : State} (h : s.loader.gate.installed = false)
    (result : ResultCode) (detail : Word) : StaysUninstalled s (s.answer result detail) :=
  staysUninstalled_of_keeps h (keeps_answer ..)

theorem staysUninstalled_loadRequest {s : State} (h : s.loader.gate.installed = false)
    (r : Request) : StaysUninstalled s (loadRequest r s) := by
  unfold loadRequest
  split
  · exact staysUninstalled_beginLoad s
  · rename_i hg; exact absurd hg (not_guard_of_uninstalled h)
  · exact staysUninstalled_answer h ..
  · exact staysUninstalled_answer h ..

theorem keeps_lock (s : State) (l : RigLock) : KeepsAllBut [.lock] s { s with lock := l } := by
  refine ⟨fun p hp => ?_⟩; cases p <;> simp_all [samePart]

theorem keeps_unlockRequest (r : Request) (s : State) :
    KeepsAllBut [.lock, .requests] s (unlockRequest r s) := by
  have k (x : LockState) (result : ResultCode) :
      KeepsAllBut [.lock, .requests] s ((setLock x s).answer result 0) :=
    keeps_seq (keeps_lock ..) (keeps_answer ..)
  unfold unlockRequest
  repeat' split
  all_goals exact k ..

theorem keeps_lockRequest (r : Request) (s : State) :
    KeepsAllBut [.lock, .requests] s (lockRequest r s) := by
  unfold lockRequest
  split
  · exact keeps_mono (keeps_answer ..) (by decide)
  · exact keeps_mono (keeps_answer ..) (by decide)
  · exact keeps_mono (keeps_answer ..) (by decide)
  · exact keeps_seq (keeps_lock ..) (keeps_answer ..)

theorem keeps_clearStageRequest (r : Request) (s : State) :
    KeepsAllBut [.goals, .requests] s (clearStageRequest r s) := by
  unfold clearStageRequest
  split
  · exact keeps_mono (keeps_answer ..) (by decide)
  · exact keeps_seq (keeps_goals ..) (keeps_answer ..)

/-- A request that answers and does nothing else. -/
def AnswersAlone (s t : State) : Prop := ∃ result detail, t = s.answer result detail

theorem answersAlone (s : State) (result : ResultCode) (detail : Word) :
    AnswersAlone s (s.answer result detail) := ⟨result, detail, rfl⟩

theorem AnswersAlone.staysUninstalled {s t : State} (h : AnswersAlone s t)
    (hs : s.loader.gate.installed = false) : StaysUninstalled s t := by
  obtain ⟨result, detail, rfl⟩ := h
  exact staysUninstalled_answer hs ..

section
variable {s : State} (h : s.loader.gate.installed = false) (r : Request)
include h

theorem restartRequest_uninstalled : AnswersAlone s (restartRequest r s) := by
  simp [restartRequest, h, answersAlone]

theorem setModeRequest_uninstalled : AnswersAlone s (setModeRequest r s) := by
  have hg := not_guard_of_uninstalled h
  have hb := not_bypass_of_uninstalled h
  unfold setModeRequest
  split
  · exact answersAlone ..
  · simp [setModeBypassRequest, hg, answersAlone]
  · simp [setModeGuardRequest, hb, answersAlone]

theorem goRequest_uninstalled : AnswersAlone s (goRequest r s) := by
  simp [goRequest, not_guard_of_uninstalled h, answersAlone]

theorem withdrawRequest_uninstalled : AnswersAlone s (withdrawRequest r s) := by
  unfold withdrawRequest
  split
  · exact answersAlone ..
  · simp [not_guard_of_uninstalled h, answersAlone]

theorem setGoalModeRequest_uninstalled : AnswersAlone s (setGoalModeRequest r s) := by
  unfold setGoalModeRequest
  split
  · exact answersAlone ..
  · simp [h, answersAlone]

theorem powerRequest_uninstalled : AnswersAlone s (powerRequest r s) := by
  unfold powerRequest
  split
  · simp [not_guard_of_uninstalled h, answersAlone]
  · exact answersAlone ..

theorem clearFaultRequest_uninstalled : AnswersAlone s (clearFaultRequest r s) := by
  unfold clearFaultRequest
  split
  · simp [clearFaultGroupRequest, h, answersAlone]
  · unfold clearFaultHoistRequest
    split
    · exact answersAlone ..
    · simp [h, answersAlone]

theorem resumeRequest_uninstalled : AnswersAlone s (resumeRequest r s) := by
  simp [resumeRequest, h, answersAlone]

theorem setRateRequest_uninstalled : AnswersAlone s (setRateRequest r s) := by
  unfold setRateRequest
  dsimp only
  split
  · split
    · exact answersAlone ..
    · simp [h, answersAlone]
  · exact answersAlone ..

theorem setTrimRequest_uninstalled : AnswersAlone s (setTrimRequest r s) := by
  unfold setTrimRequest
  dsimp only
  split
  · exact answersAlone ..
  · simp [h, answersAlone]

theorem snapshotStatsRequest_uninstalled : AnswersAlone s (snapshotStatsRequest r s) := by
  simp [snapshotStatsRequest, h, answersAlone]

/-- With no configuration installed LOAD, UNLOCK, LOCK and CLEAR_STAGE alone do more than answer,
and none of them installs one (R165). -/
theorem staysUninstalled_dispatch : StaysUninstalled s (dispatch r s) := by
  unfold dispatch
  split
  · exact staysUninstalled_loadRequest h r
  · exact (restartRequest_uninstalled h r).staysUninstalled h
  · exact (setModeRequest_uninstalled h r).staysUninstalled h
  · exact staysUninstalled_of_keeps h (keeps_unlockRequest ..)
  · exact staysUninstalled_of_keeps h (keeps_lockRequest ..)
  · exact (goRequest_uninstalled h r).staysUninstalled h
  · exact staysUninstalled_of_keeps h (keeps_clearStageRequest ..)
  · exact (withdrawRequest_uninstalled h r).staysUninstalled h
  · exact (setGoalModeRequest_uninstalled h r).staysUninstalled h
  · exact (powerRequest_uninstalled h r).staysUninstalled h
  · exact (clearFaultRequest_uninstalled h r).staysUninstalled h
  · exact (resumeRequest_uninstalled h r).staysUninstalled h
  · exact (setRateRequest_uninstalled h r).staysUninstalled h
  · exact (setTrimRequest_uninstalled h r).staysUninstalled h
  · exact (snapshotStatsRequest_uninstalled h r).staysUninstalled h
  · exact staysUninstalled_answer h ..

end

/-! ### Accesses with no configuration installed -/

theorem keeps_requests (s : State) (x : RequestHandler) :
    KeepsAllBut [.requests] s { s with requests := x } := by
  refine ⟨fun p hp => ?_⟩; cases p <;> simp_all [samePart]

theorem staysUninstalled_requestEvent {s : State} (h : s.loader.gate.installed = false) :
    StaysUninstalled s (requestEvent s) := by
  unfold requestEvent
  split
  · have taken := staysUninstalled_of_keeps h
      (keeps_requests s { s.requests with state := .inHand s.capturedRequest })
    exact taken.trans (staysUninstalled_dispatch taken.gate _)
  · exact staysUninstalled_of_keeps h (keeps_notice ..)

theorem staysUninstalled_captureRequestCode {s : State} (h : s.loader.gate.installed = false)
    (data : Word) (enables : ByteEnables) :
    StaysUninstalled s (captureRequestCode data enables s) := by
  have captured : StaysUninstalled s { s with port := { s.port with
      requestCode := mergeBytes s.port.requestCode data enables } } :=
    ⟨h, ⟨rfl, rfl, rfl⟩, fun hn => ⟨hn, rfl⟩⟩
  unfold captureRequestCode
  dsimp only
  split
  · exact captured.trans (staysUninstalled_requestEvent captured.gate)
  · exact captured

/-- An arrival for a slot with no hoist is passed over (R133). -/
theorem decideArrival_absent {s : State} {slot : Slot} (h : s.hoist slot = none) :
    decideArrival slot s = s := by
  simp [decideArrival, h]

/-- What a captured status word may change (R132, R133). -/
theorem keeps_captureStatus (slot : Slot) (word : Fin 4) (data : Word) (enables : ByteEnables)
    (s : State) : KeepsAllBut
      [.halt, .faultQueue, .pacer, .groups, .hoists, .batches, .counters, .statusCopies] s
      (captureStatus slot word data enables s) := by
  unfold captureStatus
  dsimp only
  split
  · exact keeps_seq (keeps_updateStatus ..) (keeps_seq
      (c := [.halt, .faultQueue, .pacer, .groups, .hoists, .batches, .counters, .statusCopies])
      (keeps_decideArrival ..) (keeps_updateStatus ..))
  · exact keeps_mono (keeps_updateStatus ..) (by decide)

/-- With no hoist a captured status word moves its copy alone. -/
theorem keeps_captureStatus_absent {s : State} (slot : Slot) (h : s.hoist slot = none)
    (word : Fin 4) (data : Word) (enables : ByteEnables) :
    KeepsAllBut [.statusCopies] s (captureStatus slot word data enables s) := by
  have merged : decideArrival slot (s.updateStatus slot (·.merge word data enables)) =
      s.updateStatus slot (·.merge word data enables) := decideArrival_absent h
  unfold captureStatus
  dsimp only
  split
  · rw [merged]
    exact keeps_trans (keeps_updateStatus ..) (keeps_updateStatus ..)
  · exact keeps_updateStatus ..

theorem staysUninstalled_captureStatus {s : State} (h : s.loader.gate.installed = false)
    (slot : Slot) (word : Fin 4) (data : Word) (enables : ByteEnables) :
    StaysUninstalled s (captureStatus slot word data enables s) := by
  have k := keeps_captureStatus slot word data enables s
  have loader : (captureStatus slot word data enables s).loader = s.loader :=
    k.same .loader (by decide)
  exact ⟨by rw [loader]; exact h, k.same .lineLevels (by decide), fun hn =>
    (staysUninstalled_of_keeps h (keeps_captureStatus_absent slot (hn slot) ..)).hoistless hn⟩

theorem keeps_captureArgument (n : Fin 4) (data : Word) (enables : ByteEnables) (s : State) :
    KeepsAllBut [.captured] s (captureArgument n data enables s) := by
  refine ⟨fun p hp => ?_⟩; cases p <;> simp_all [samePart, captureArgument]

theorem keeps_hold (a : Access) (s : State) : KeepsAllBut [] s { s with port := { s.port with
    places := s.port.places.set a.mid (.held a) } } := by
  refine ⟨fun p _ => ?_⟩; cases p <;> simp [samePart]

/-- The classes that hand a goal to Goal Intake or to the Grid Mapper. -/
def bringsGoal : AccessClass → Bool
  | .intercept _ => true
  | .capture (.grid _) => true
  | _ => false

theorem setpoint_brings_no_goal {s : State} (h : s.loader.gate ≠ .guard) (a : Access) (o : Nat) :
    bringsGoal (classifySetpoint s a o) = false := by
  simp only [classifySetpoint, if_neg h]
  repeat' split
  all_goals rfl

theorem grid_brings_no_goal {s : State} (h : s.loader.gate ≠ .guard) (a : Access) (o : Nat) :
    bringsGoal (classifyGrid s a o) = false := by
  simp only [classifyGrid, if_neg h]
  repeat' split
  all_goals rfl

theorem control_brings_no_goal (a : Access) (o : Nat) :
    bringsGoal (classifyControl a o) = false := by
  unfold classifyControl
  repeat' split
  all_goals rfl

theorem configuration_brings_no_goal (s : State) (a : Access) (o : Nat) :
    bringsGoal (classifyConfiguration s a o) = false := by
  unfold classifyConfiguration
  repeat' split
  all_goals rfl

theorem status_brings_no_goal (a : Access) (o : Nat) : bringsGoal (classifyStatus a o) = false := by
  unfold classifyStatus
  dsimp only
  repeat' split
  all_goals rfl

theorem reportArea_brings_no_goal (a : Access) : bringsGoal (classifyReportArea a) = false := by
  unfold classifyReportArea
  repeat' split
  all_goals rfl

theorem user_brings_no_goal (s : State) (a : Access) (lockable fenced : Bool) :
    bringsGoal (classifyUser s a lockable fenced) = false := by
  unfold classifyUser
  dsimp only
  repeat' split
  all_goals rfl

/-- A goal is taken from an access in GUARD alone (R7, R11). -/
theorem classify_brings_no_goal {s : State} (h : s.loader.gate ≠ .guard) (a : Access) :
    bringsGoal (classify s a) = false := by
  unfold classify
  split
  · exact configuration_brings_no_goal ..
  · exact control_brings_no_goal ..
  · rfl
  · exact setpoint_brings_no_goal h ..
  · exact status_brings_no_goal ..
  · exact grid_brings_no_goal h ..
  · exact reportArea_brings_no_goal a
  · exact reportArea_brings_no_goal a
  · exact user_brings_no_goal ..

theorem staysUninstalled_consume {s : State} (h : s.loader.gate.installed = false)
    {what : Capture} (hw : bringsGoal (.capture what) = false) (addr : Addr) (data : Word)
    (enables : ByteEnables) : StaysUninstalled s (consume what addr data enables s) := by
  cases what with
  | requestCode => exact staysUninstalled_captureRequestCode h ..
  | argument n => exact staysUninstalled_of_keeps h (keeps_captureArgument ..)
  | keyWord n => exact staysUninstalled_of_keeps h (keeps_lock ..)
  | status slot word => exact staysUninstalled_captureStatus h ..
  | grid o => cases hw

/-- An access taken with no configuration installed, by its class. -/
theorem staysUninstalled_takeAccess {s : State} (h : s.loader.gate.installed = false)
    (a : Access) : StaysUninstalled s (takeAccess a s) := by
  have waiting : StaysUninstalled s (enterWaiting a false s) :=
    staysUninstalled_of_keeps h (keeps_enterWaiting ..)
  have noGoal := classify_brings_no_goal (not_guard_of_uninstalled h) a
  unfold takeAccess
  cases hc : classify s a with
  | pass => exact waiting
  | capture what =>
    rw [hc] at noGoal
    simp only [carryOut]
    split
    · exact waiting
    · exact waiting.trans (staysUninstalled_consume waiting.gate noGoal ..)
  | intercept slot => rw [hc] at noGoal; cases noGoal
  | drop n => exact staysUninstalled_of_keeps h (keeps_noteDrop ..)
  | zero => exact staysUninstalled_of_keeps h (keeps_returnData ..)
  | hold => exact staysUninstalled_of_keeps h (keeps_hold ..)

/-! ### The bus after RESET -/

theorem staysUninstalled_drainList (m : Mid) (l : List Access) {s : State}
    (h : s.loader.gate.installed = false) : StaysUninstalled s (drainList m l s) := by
  induction l generalizing s with
  | nil => exact staysUninstalled_of_keeps h (keeps_setBus ..)
  | cons a rest ih =>
    simp only [drainList]
    split
    · exact staysUninstalled_of_keeps h (keeps_setBus ..)
    · have off := staysUninstalled_of_keeps h (keeps_setBus m rest s)
      have taken := off.trans (staysUninstalled_takeAccess off.gate a)
      exact taken.trans (ih taken.gate)

theorem staysUninstalled_drainBuses (ms : List Mid) {s : State}
    (h : s.loader.gate.installed = false) : StaysUninstalled s (forEach drainBus ms s) := by
  induction ms generalizing s with
  | nil => exact staysUninstalled_of_keeps h (keeps_refl [] s)
  | cons m ms ih =>
    have drained : StaysUninstalled s (drainBus m s) := staysUninstalled_drainList m _ h
    exact drained.trans (ih drained.gate)

theorem perMid_set_get {α : Type} (t : PerMid α) (m : Mid) : t.set m (t.get m) = t := by
  cases m <;> rfl

/-- A master with nothing on the bus has nothing taken from it. -/
theorem drainBus_nil {m : Mid} {s : State} (h : s.port.bus.get m = []) : drainBus m s = s := by
  have e : s.port.bus.set m [] = s.port.bus := by rw [← h, perMid_set_get]
  simp [drainBus, h, drainList, setBus, e]

theorem drainBuses_nil {s : State} (h : ∀ m, s.port.bus.get m = []) (ms : List Mid) :
    forEach drainBus ms s = s := by
  induction ms with
  | nil => rfl
  | cons m ms ih => rw [forEach, drainBus_nil (h m), ih]

/-! ### The places across the end of an event -/

theorem places_grantPass (m : Mid) (rest : List Mid) (s : State) :
    (grantPass m rest s).port.places = s.port.places := by
  unfold grantPass
  dsimp only
  split <;> rfl

/-- A drive link engine read that returns to HELD still stands in its place (R9). -/
theorem occupied_holdSetpointRead (s : State) (m : Mid) :
    ((holdSetpointRead s).port.places.get m).occupied = (s.port.places.get m).occupied := by
  unfold holdSetpointRead
  split
  · rfl
  · rename_i a ha
    have hp : s.port.places.driveLink.occupied = true := by
      unfold State.waitingSetpointRead at ha
      split at ha
      · rename_i hp; rw [hp]; rfl
      · cases ha
      · cases ha
    cases m with
    | driveLink => exact hp.symm
    | _ => rfl

theorem occupied_releaseGranted (s : State) (m : Mid) :
    ((releaseGranted s).port.places.get m).occupied = (s.port.places.get m).occupied := by
  unfold releaseGranted
  dsimp only
  split
  · exact occupied_holdSetpointRead s m
  · rfl
  · rfl

theorem occupied_grantInternal (c : Claimant) (addr : Addr) (op : AccessOp) (s : State) (m : Mid) :
    ((grantInternal c addr op s).port.places.get m).occupied = (s.port.places.get m).occupied := by
  cases c with
  | releaseWriter => exact occupied_releaseGranted (startOp .releaseWriter addr op .internal s) m
  | _ => rfl

theorem occupied_grantPort (s : State) (m : Mid) :
    ((grantPort s).port.places.get m).occupied = (s.port.places.get m).occupied := by
  unfold grantPort
  repeat' split
  · rfl
  · rw [places_grantPass]
  · rw [places_grantPass]
  · exact occupied_grantInternal ..
  · exact occupied_grantInternal ..
  · rfl

theorem places_claimReport (s : State) : (claimReport s).port.places = s.port.places := by
  unfold claimReport chooseReport claimMirrorOrSnapshot claimSnapshot claimMirror beginRecord
  repeat' split
  all_goals rfl

theorem places_drawAwaited (s : State) : (drawAwaited s).port.places = s.port.places := by
  unfold drawAwaited
  split <;> rfl

/-- The end of an event empties and fills no place. -/
theorem occupied_endOfEvent (before s : State) (m : Mid) :
    ((endOfEvent before s).port.places.get m).occupied = (s.port.places.get m).occupied := by
  unfold endOfEvent
  split
  · rfl
  · refine (occupied_grantPort _ m).trans ?_
    rw [places_claimReport, places_drawAwaited]
    rfl

/-- With RESET low WAIT stands after an event where a place is occupied (R21). -/
theorem wait_endOfEvent {before s : State} (h : s.lines.reset = false) (m : Mid) :
    (endOfEvent before s).lines.wait.get m = (s.port.places.get m).occupied := by
  have levels := (keeps_endOfEvent before s).same .lineLevels (by decide)
  have low : (endOfEvent before s).lines.reset = false := levels.2.2.trans h
  rw [(linesShow_endOfEvent before s).2.2 m, State.mustWait, low, occupied_endOfEvent,
    Bool.false_or]

/-! ### RESET_ASSERTED -/

theorem faultedHoistCount_of_noHoists {s : State} (h : NoHoists s) : s.faultedHoistCount = 0 :=
  List.countP_eq_zero.mpr fun slot _ => by simp [State.faulted, h slot]

theorem heldGroupCount_of_noGroups {s : State} (h : ∀ g, s.group g = none) :
    s.heldGroupCount = 0 :=
  List.countP_eq_zero.mpr fun g _ => by simp [State.groupHeld, h g]

/-- At the RESET values no hoist or group is in trouble, and the halt's one cause is RESET (R156).
-/
theorem inTrouble_resetBlocks (s : State) : (resetBlocks s).inTrouble = false := by
  have hoists : (resetBlocks s).faultedHoistCount = 0 :=
    faultedHoistCount_of_noHoists fun slot => by simp [State.hoist, resetBlocks, State.reset]
  have groups : (resetBlocks s).heldGroupCount = 0 :=
    heldGroupCount_of_noGroups fun g => by simp [State.group, resetBlocks, State.reset]
  unfold State.inTrouble
  rw [hoists, groups]
  rfl

/-- RESET asserted: every block at its RESET values, and WAIT toward every master (R4, R21). -/
theorem event_resetBlocks (s : State) : event resetBlocks s = { State.reset with
    port := { ControllerPort.reset with bus := s.port.bus, readData := s.port.readData }
    memPort := ⟨s.memPort.op.map fun op => { op with live := false }, .internal⟩
    halt := ⟨s.halt.channelA, s.halt.channelB, true, ⟨true, false, false, false⟩, 0,
      .notRequired⟩
    lines := ⟨s.lines.stopA, s.lines.stopB, true, false, false, .all true⟩
    mem := s.mem
    free := s.free
    pending := s.pending } := by
  have asserted : event resetBlocks s = driveLines (resetBlocks s) := rfl
  rw [asserted, driveLines, inTrouble_resetBlocks]
  rfl

/-! ### RESET_RELEASED -/

/-- The part just after RESET has fallen, before it takes anything from the bus (R147). -/
def channelsTaken (s : State) : State :=
  { s with
    halt := { s.halt with channelA := s.lines.stopA, channelB := s.lines.stopB }
    lines := { s.lines with reset := false } }

theorem releaseReset_eq (s : State) :
    releaseReset s = forEach drainBus allMids (channelsTaken s) := rfl

theorem keeps_channelsTaken (s : State) :
    KeepsAllBut [.halt, .lineLevels] s (channelsTaken s) := by
  refine ⟨fun p hp => ?_⟩; cases p <;> simp_all [samePart, channelsTaken]

theorem releaseReset_nil {s : State} (h : ∀ m, s.port.bus.get m = []) :
    releaseReset s = channelsTaken s := drainBuses_nil (s := channelsTaken s) h allMids

theorem halt_endOfEvent (before s : State) : (endOfEvent before s).halt = s.halt :=
  (keeps_endOfEvent before s).same .halt (by decide)

theorem reset_event_releaseReset {s : State} (h : s.loader.gate.installed = false) :
    (event releaseReset s).lines.reset = false := by
  have drained := (staysUninstalled_drainBuses allMids (s := channelsTaken s) h).levels.2.2
  have ended := (keeps_endOfEvent s (releaseReset s)).same .lineLevels (by decide)
  exact ended.2.2.trans drained

/-- What stands on the bus reaches the halt through a hoist's status alone, so a part with no hoist
keeps the halt that the release left (R133, R145, R147). -/
theorem halt_event_releaseReset {s : State} (h : s.loader.gate.installed = false)
    (hs : NoHoists s ∨ ∀ m, s.port.bus.get m = []) :
    (event releaseReset s).halt =
      { s.halt with channelA := s.lines.stopA, channelB := s.lines.stopB } := by
  rw [event, halt_endOfEvent]
  obtain hn | hb := hs
  · exact ((staysUninstalled_drainBuses allMids (s := channelsTaken s) h).hoistless hn).2
  · rw [releaseReset_nil hb]; rfl

theorem wait_event_releaseReset {s : State} (hb : ∀ m, s.port.bus.get m = []) (m : Mid) :
    (event releaseReset s).lines.wait.get m = (s.port.places.get m).occupied := by
  rw [event, releaseReset_nil hb]
  exact wait_endOfEvent rfl m

theorem keeps_event_releaseReset {s : State} (hr : ∀ r, s.requests.state ≠ .answered r)
    (hb : ∀ m, s.port.bus.get m = []) :
    KeepsAllBut [.halt, .lineLevels] s (event releaseReset s) := by
  rw [event, releaseReset_nil hb]
  exact keeps_event (keeps_channelsTaken s) hr

/-! ### The two commands -/

theorem exec_resetAsserted_high {s : State} (h : s.lines.reset = true) :
    exec .resetAsserted s = .next s := if_pos h

theorem exec_resetAsserted_low {s : State} (h : s.lines.reset = false) :
    exec .resetAsserted s = .next (event resetBlocks s) := if_neg (by simp [h])

theorem exec_resetReleased_high {s : State} (h : s.lines.reset = true) :
    exec .resetReleased s = .next (event releaseReset s) := if_pos h

theorem exec_resetReleased_low {s : State} (h : s.lines.reset = false) :
    exec .resetReleased s = .next s := if_neg (by simp [h])

/-- Settles O48: RESET already at its level leaves the state, an assertion gives the RESET values,
and a release takes what stands on the bus with no configuration installed, which moves no halt. -/
theorem resetAssertedAndReleased : Obligations.ResetAssertedAndReleased := by
  intro s
  refine ⟨exec_resetAsserted_high, exec_resetReleased_low, fun low => ?_, fun high rests => ?_⟩
  · rw [exec_resetAsserted_low low, event_resetBlocks]
  · obtain ⟨unanswered, asserted⟩ := rests
    obtain ⟨gate, -, -⟩ := asserted high
    have uninstalled : s.loader.gate.installed = false := by rw [gate]; rfl
    have noHoists (blank : BlankUnlessInstalled s) : NoHoists s :=
      have ⟨_, hoists, _⟩ := blank uninstalled
      hoists
    exact ⟨event releaseReset s, exec_resetReleased_high high,
      reset_event_releaseReset uninstalled,
      fun hs => halt_event_releaseReset uninstalled (hs.imp_left noHoists),
      fun empty => ⟨wait_event_releaseReset empty, keeps_event_releaseReset unanswered empty⟩⟩

end Sys2Proof.Proofs
end

section
/-! SUPPORT. WITHDRAW (04 R80): what removing goals and unlinking movers one after the other comes
to (R98, R119), and how a request with an effect of its own is answered (R166). -/

namespace Sys2Proof.Proofs

open Sys2Proof.Machine Sys2Proof.Laws

/-! ### One operation for each element of a list -/

/-- What no step of a list changes, the whole list leaves. -/
theorem forEach_same {α β : Type} {f : α → State → State} (view : State → β)
    (h : ∀ x s, view (f x s) = view s) (xs : List α) (s : State) :
    view (forEach f xs s) = view s := by
  induction xs generalizing s with
  | nil => rfl
  | cons x xs ih => exact (ih (f x s)).trans (h x s)

/-! ### A resume point whose mover leaves (R119) -/

/-- The resume point at a mover, or END where there is none. -/
def resumeAtOrEnd : Option Mover → ResumePoint
  | some m => .mover m
  | none => .tail

theorem resumeWithout_mover {q : PacingQueue} {k : Mover} (h : q.resume = some (.mover k))
    (ms : List Mover) :
    q.resumeWithout ms =
      some (resumeAtOrEnd ((q.movers.dropWhile (· ≠ k)).find? (· ∉ ms))) := by
  unfold PacingQueue.resumeWithout
  rw [h]
  dsimp only
  cases (q.movers.dropWhile (· ≠ k)).find? (· ∉ ms) <;> rfl

theorem resumeWithout_not_mover {q : PacingQueue} (h : ∀ k, q.resume ≠ some (.mover k))
    (ms : List Mover) : q.resumeWithout ms = q.resume := by
  unfold PacingQueue.resumeWithout
  split
  · rename_i k e; exact absurd e (h k)
  · rename_i e; exact e.symm
  · rename_i e; exact e.symm

/-- The list from one of its movers on begins with that mover. -/
theorem dropWhile_ne_of_mem {k : Mover} {l : List Mover} (h : k ∈ l) :
    ∃ rest, l.dropWhile (· ≠ k) = k :: rest := by
  induction l with
  | nil => cases h
  | cons x rest ih =>
    by_cases e : x = k
    · exact ⟨rest, by simp [e]⟩
    · obtain ⟨tail, ht⟩ := ih ((List.mem_cons.mp h).resolve_left (Ne.symm e))
      exact ⟨tail, by simpa [e] using ht⟩

/-- A resume point at a mover of the list that stays is left alone. -/
theorem resumeWithout_of_stays {q : PacingQueue} {k : Mover} {ms : List Mover}
    (h : q.resume = some (.mover k)) (listed : k ∈ q.movers) (stays : k ∉ ms) :
    q.resumeWithout ms = q.resume := by
  obtain ⟨rest, e⟩ := dropWhile_ne_of_mem listed
  rw [resumeWithout_mover h, e, h, List.find?_cons_of_pos (by simpa using stays)]
  rfl

/-- The mover after one that leaves is the first of the list from there on that stays. -/
theorem resumeAfter_eq {m : Mover} {l : List Mover} (once : l.Nodup) :
    resumeAfter m l = resumeAtOrEnd ((l.dropWhile (· ≠ m)).find? (· ∉ [m])) := by
  induction l with
  | nil => rfl
  | cons x rest ih =>
    obtain ⟨hx, once⟩ := List.nodup_cons.mp once
    by_cases e : x = m
    · subst e
      cases rest with
      | nil => simp [resumeAfter, resumeAtOrEnd]
      | cons y _ =>
        have hy : y ≠ x := fun c => hx (by simp [c])
        simp [resumeAfter, resumeAtOrEnd, hy]
    · simpa [resumeAfter, e] using ih once

/-- From the first mover that stays on, the thinned list is the thinned rest of the list. -/
theorem dropWhile_filter_of_nodup {l : List Mover} (once : l.Nodup) (k : Mover)
    (stays : Mover → Bool) {next : Mover} {rest : List Mover}
    (h : (l.dropWhile (· ≠ k)).filter stays = next :: rest) :
    (l.filter stays).dropWhile (· ≠ next) = next :: rest := by
  have parts : (l.takeWhile (· ≠ k)).filter stays ++ next :: rest = l.filter stays := by
    rw [← h, ← List.filter_append, List.takeWhile_append_dropWhile]
  have apart := once.filter stays
  rw [← parts] at apart ⊢
  obtain ⟨-, -, apart⟩ := List.nodup_append.mp apart
  have before : ∀ x ∈ (l.takeWhile (· ≠ k)).filter stays, decide (x ≠ next) = true := fun x hx =>
    decide_eq_true (apart x hx next List.mem_cons_self)
  rw [List.dropWhile_append_of_pos before]
  simp

/-- Some movers that leave a list after others: the resume point goes where it would go if all left
at once. -/
theorem resumeWithout_append {as bs : List Mover} {q q' : PacingQueue} (once : q.movers.Nodup)
    (movers : q'.movers = q.movers.filter (· ∉ as)) (resume : q'.resume = q.resumeWithout as) :
    q'.resumeWithout bs = q.resumeWithout (as ++ bs) := by
  by_cases atMover : ∃ k, q.resume = some (.mover k)
  · obtain ⟨k, hk⟩ := atMover
    have all : (q.movers.dropWhile (· ≠ k)).find? (· ∉ as ++ bs) =
        ((q.movers.dropWhile (· ≠ k)).filter (· ∉ as)).find? (· ∉ bs) := by
      simp [List.find?_filter]
    rw [resumeWithout_mover hk, ← List.head?_filter] at resume
    rw [resumeWithout_mover hk, all]
    cases e : (q.movers.dropWhile (· ≠ k)).filter (· ∉ as) with
    | nil =>
      rw [e] at resume
      exact (resumeWithout_not_mover (by simp [resume, resumeAtOrEnd]) bs).trans resume
    | cons next rest =>
      rw [e] at resume
      rw [resumeWithout_mover resume, movers, dropWhile_filter_of_nodup once k _ e]
  · have elsewhere (k : Mover) : q.resume ≠ some (.mover k) := fun h => atMover ⟨k, h⟩
    rw [resumeWithout_not_mover elsewhere] at resume
    rw [resumeWithout_not_mover elsewhere, resumeWithout_not_mover (by rwa [resume]), resume]

/-- A resume point that has moved to a mover stands at one of the list that stays. -/
theorem mem_of_resumeWithout {as : List Mover} {q : PacingQueue} {m : Mover}
    (h : q.resumeWithout as = some (.mover m)) : m ∈ q.movers.filter (· ∉ as) := by
  unfold PacingQueue.resumeWithout at h
  split at h
  · split at h
    · rename_i next e
      cases h
      exact List.mem_filter.mpr
        ⟨(List.dropWhile_sublist _).subset (List.mem_of_find?_eq_some e),
          by simpa using List.find?_some e⟩
    · cases h
  · cases h
  · cases h

theorem resumesAt_append (as bs : List Mover) (r : Option ResumePoint) :
    resumesAt (as ++ bs) r = (resumesAt as r || resumesAt bs r) := by
  unfold resumesAt
  split <;> simp

theorem resumesWithout_nil (q : PacingQueue) : ResumesWithout [] q q := by
  refine ⟨fun _ => rfl, fun _ listed => ?_⟩
  by_cases atMover : ∃ k, q.resume = some (.mover k)
  · obtain ⟨k, hk⟩ := atMover
    exact (resumeWithout_of_stays hk (listed k hk) (by simp)).symm
  · exact (resumeWithout_not_mover (fun k h => atMover ⟨k, h⟩) []).symm

theorem resumesWithout_unlink (m : Mover) (q : PacingQueue) :
    ResumesWithout [m] q (q.unlink m) := by
  by_cases leaves : q.resume = some (.mover m)
  · have moved : (q.unlink m).resume = some (resumeAfter m q.movers) := if_pos leaves
    refine ⟨fun h => ?_, fun once _ => ?_⟩
    · simp [resumesAt, leaves] at h
    · rw [moved, resumeWithout_mover leaves, resumeAfter_eq once]
  · have stands : (q.unlink m).resume = q.resume := if_neg leaves
    refine ⟨fun _ => stands, fun _ listed => stands.trans ?_⟩
    by_cases atMover : ∃ k, q.resume = some (.mover k)
    · obtain ⟨k, hk⟩ := atMover
      have stays : k ∉ [m] := fun h => leaves (List.mem_singleton.mp h ▸ hk)
      exact (resumeWithout_of_stays hk (listed k hk) stays).symm
    · exact (resumeWithout_not_mover (fun k h => atMover ⟨k, h⟩) _).symm

theorem resumesWithout_append {as bs : List Mover} {q q' q'' : PacingQueue}
    (movers : q'.movers = q.movers.filter (· ∉ as)) (h : ResumesWithout as q q')
    (k : ResumesWithout bs q' q'') : ResumesWithout (as ++ bs) q q'' := by
  obtain ⟨stands, moves⟩ := h
  obtain ⟨stands', moves'⟩ := k
  refine ⟨fun nowhere => ?_, fun once listed => ?_⟩
  · rw [resumesAt_append, Bool.or_eq_false_iff] at nowhere
    obtain ⟨first, second⟩ := nowhere
    have same := stands first
    rw [stands' (by rwa [same]), same]
  · have moved := moves once listed
    rw [moves' (by rw [movers]; exact once.filter _) fun m hm => by
      rw [movers]; exact mem_of_resumeWithout (moved.symm.trans hm)]
    exact resumeWithout_append once movers moved

/-! ### Movers that leave the lists (R98, R119) -/

/-- Some movers leave the lists: their MOVING groups go to IDLE; the rest of the Pacer stands. -/
structure MoversLeave (ms : List Mover) (s t : State) : Prop where
  unlinked : Unlinked ms s t
  stopped : GroupsStopped ms s t
  batchNumber : t.pacer.batchNumber = s.pacer.batchNumber
  settings : PacerSettingsStand s t

/-- It speaks of the Pacer and the groups alone. -/
theorem MoversLeave.congr {ms : List Mover} {s t s' t' : State} (h : MoversLeave ms s t)
    (pacer : s'.pacer = s.pacer) (groups : s'.groups = s.groups)
    (pacer' : t'.pacer = t.pacer) (groups' : t'.groups = t.groups) : MoversLeave ms s' t' := by
  obtain ⟨unlinked, stopped, number, settings⟩ := h
  constructor
  · simpa only [Unlinked, State.queue, pacer, pacer'] using unlinked
  · simpa only [GroupsStopped, State.group, groups, groups'] using stopped
  · rw [pacer, pacer', number]
  · simpa only [PacerSettingsStand, pacer, pacer'] using settings

theorem moversLeave_nil (s : State) : MoversLeave [] s s where
  unlinked q := ⟨(List.filter_eq_self.mpr fun _ _ => decide_eq_true List.not_mem_nil).symm, rfl,
    rfl, rfl, resumesWithout_nil _⟩
  stopped g := by simp
  batchNumber := rfl
  settings := ⟨rfl, rfl, rfl, rfl, rfl, rfl, rfl⟩

/-- Some movers that leave after others. -/
theorem MoversLeave.append {as bs : List Mover} {s t u : State} (h : MoversLeave as s t)
    (k : MoversLeave bs t u) : MoversLeave (as ++ bs) s u where
  unlinked q := by
    obtain ⟨movers, rate, due, increment, resume⟩ := h.unlinked q
    obtain ⟨movers', rate', due', increment', resume'⟩ := k.unlinked q
    refine ⟨?_, rate'.trans rate, due'.trans due, increment'.trans increment,
      resumesWithout_append movers resume resume'⟩
    simp [movers', movers, List.filter_filter, Bool.and_comm]
  stopped g := by
    rw [k.stopped g, h.stopped g, Option.map_map]
    congr 1
    funext r
    by_cases first : Mover.group g ∈ as ∧ r.state = .moving
    · simp [first]
    · simp only [Function.comp, if_neg first, List.mem_append]
      by_cases second : Mover.group g ∈ bs ∧ r.state = .moving
      · rw [if_pos second, if_pos ⟨.inr second.1, second.2⟩]
      · rw [if_neg second, if_neg fun both => both.1.elim (first ⟨·, both.2⟩) (second ⟨·, both.2⟩)]
  batchNumber := k.batchNumber.trans h.batchNumber
  settings := by
    obtain ⟨a, b, budget, dwell, trim, frame, frozen⟩ := h.settings
    obtain ⟨a', b', budget', dwell', trim', frame', frozen'⟩ := k.settings
    exact ⟨a'.trans a, b'.trans b, budget'.trans budget, dwell'.trans dwell, trim'.trans trim,
      frame'.trans frame, frozen'.trans frozen⟩

@[simp] theorem groupToIdle_pacer (m : Mover) (s : State) : (groupToIdle m s).pacer = s.pacer :=
  (keeps_groupToIdle m s).same .pacer (by decide)

theorem queue_unlinkMover (m : Mover) (s : State) (q : QueueNo) :
    (unlinkMover m s).queue q = (s.queue q).unlink m := by
  simp [State.queue, unlinkMover]

theorem group_groupToIdle (m : Mover) (s : State) (g : GroupNo) :
    (groupToIdle m s).group g = (s.group g).map fun r =>
      if .group g = m ∧ r.state = .moving then { r with state := .idle } else r := by
  cases m with
  | hoist slot => simp [groupToIdle]
  | group k =>
    simp only [groupToIdle, group_updateGroup, Mover.group.injEq]
    by_cases e : g = k
    · subst e; simp
    · simp [e]

theorem moversLeave_unlinkMover (m : Mover) (s : State) : MoversLeave [m] s (unlinkMover m s) where
  unlinked q := by
    rw [queue_unlinkMover]
    exact ⟨by simp [PacingQueue.unlink], rfl, rfl, rfl, resumesWithout_unlink m _⟩
  stopped g := by
    simp only [List.mem_singleton]
    exact group_groupToIdle m _ g
  batchNumber := by simp [unlinkMover]
  settings := by simp [PacerSettingsStand, unlinkMover]

theorem moversLeave_forEach (ms : List Mover) (s : State) :
    MoversLeave ms s (forEach unlinkMover ms s) := by
  induction ms generalizing s with
  | nil => exact moversLeave_nil s
  | cons m ms ih => exact (moversLeave_unlinkMover m s).append (ih _)

/-! ### Goals removed (R84) -/

theorem hoist_removeGoal (slot k : Slot) (s : State) :
    (removeGoal slot s).hoist k =
      (s.hoist k).map fun h => if k = slot then { h with goal := none } else h := by
  rw [removeGoal, hoist_updateHoist]
  by_cases e : k = slot
  · subst e; simp
  · simp [e]

theorem hoistsBecome_removeGoals (slots : List Slot) (s : State) :
    HoistsBecome (fun slot h => if slot ∈ slots then { h with goal := none } else h) s
      (forEach removeGoal slots s) := by
  intro k
  induction slots generalizing s with
  | nil => simp [forEach]
  | cons slot slots ih =>
    rw [forEach, ih, hoist_removeGoal, Option.map_map]
    congr 1
    funext h
    by_cases e : k = slot <;> simp [e]

/-- It speaks of the hoists alone. -/
theorem hoistsBecome_congr {f : Slot → Hoist → Hoist} {s t t' : State} (h : HoistsBecome f s t)
    (hoists : t'.hoists = t.hoists) : HoistsBecome f s t' := by
  simpa only [HoistsBecome, State.hoist, hoists] using h

theorem goalCount_eq (s : State) (slots : List Slot) :
    s.goalCount slots = slots.countP fun slot => (s.hoist slot).any fun h => h.goal.isSome := by
  unfold State.goalCount
  congr 1
  funext slot
  cases s.hoist slot <;> rfl

/-! ### Requests with an effect of their own (R165, R166) -/

theorem reset_low_of_requestReady {s : State} (h : s.requestReady) : s.lines.reset = false := by
  have accepted := h.1
  simp only [State.accepts, Bool.and_eq_true, Bool.not_eq_true'] at accepted
  exact accepted.1.1

section
variable {s m : State} {code detail : Word} {result : ResultCode} (h : s.requestReady)
  (hm : dispatch ⟨code, s.port.arguments⟩ (requestInHand code s) = m.answer result detail)
include h hm

/-- A request whose effect leaves the port, the request in hand, the reports and the lines is
answered as its owner says (R166). -/
theorem answered_of_effect (port : m.port = (requestInHand code s).port)
    (requests : m.requests = (requestInHand code s).requests)
    (report : m.report = s.report) (lines : m.lines = s.lines) :
    Answered code result detail s (requestWrite code s) := by
  refine answered_requestWrite h hm ?_ (fun i => ?_) ?_ ?_
  · simp [State.answer, requests, requestInHand]
  · rw [dirty_answer, report]
  · rw [answer_lines, lines]; exact reset_low_of_requestReady h
  · rw [RequestCaptured, answer_port, port]; exact ⟨rfl, rfl, rfl⟩

/-- Such a request keeps what its effect keeps, but for the request itself. -/
theorem keeps_requestWrite {ch : List Part} (k : KeepsAllBut ch (requestInHand code s) m) :
    KeepsAllBut (ch ++ [.requests, .captured]) s (requestWrite code s) := by
  have request : [Part.requests] ⊆ ch ++ [.requests, .captured] := by simp
  rw [requestWrite_ready h, hm]
  refine keeps_seq (keeps_requestInHand code s) (keeps_seq k (keeps_seq (c := [.requests])
    (keeps_answer ..) (keeps_endOfEvent ..)) ?_ request) (by simp) (List.Subset.refl _)
  simp

end

/-! ### WITHDRAW (R80) -/

/-- The kind words HOIST, GROUP and ALL. -/
def NamesKind (kind : Word) : Prop := kind = 1 ∨ kind = 2 ∨ kind = 3

theorem subjectOf_hoist (s : State) (number : Word) :
    s.subjectOf 1 number = (s.hoistNamed number).map .hoist := by
  unfold State.subjectOf State.hoistNamed
  by_cases range : number.toNat < 128
  · cases e : s.hoist ⟨number.toNat, range⟩ <;> simp [State.present, range, e]
  · simp [range]

theorem subjectOf_group (s : State) (number : Word) :
    s.subjectOf 2 number = (s.groupNamed number).map .group := by
  unfold State.subjectOf State.groupNamed
  by_cases range : number.toNat < 32
  · cases e : s.group ⟨number.toNat, range⟩ <;> simp [range, e]
  · simp [range]

/-- A kind word that names a kind names its subjects by the number word. -/
theorem subjectKind_named {kind : Word} (h : NamesKind kind) :
    ∃ k, subjectKind kind = some k ∧
      ∀ (s : State) number, s.subjectNamed k number = s.subjectOf kind number := by
  obtain rfl | rfl | rfl := h
  · exact ⟨.hoist, rfl, fun s number => (subjectOf_hoist s number).symm⟩
  · exact ⟨.group, rfl, fun s number => (subjectOf_group s number).symm⟩
  · exact ⟨.all, rfl, fun _ _ => rfl⟩

theorem subjectKind_unnamed {kind : Word} (h : ¬NamesKind kind) :
    subjectKind kind = none := by
  unfold subjectKind
  split
  · rename_i e; exact absurd (.inl (BitVec.eq_of_toNat_eq e)) h
  · rename_i e; exact absurd (.inr (.inl (BitVec.eq_of_toNat_eq e))) h
  · rename_i e; exact absurd (.inr (.inr (BitVec.eq_of_toNat_eq e))) h
  · rfl

/-- The state of an accepted WITHDRAW before its answer: the goals removed, then the movers
unlinked. -/
def withdrawn (x : Subject) (s : State) : State :=
  forEach unlinkMover (s.withdrawMovers x) (forEach removeGoal (s.withdrawSlots x) s)

theorem withdrawSubject_eq (x : Subject) (s : State) :
    withdrawSubject x s =
      (withdrawn x s).answer .done (BitVec.ofNat 32 (s.goalCount (s.withdrawSlots x))) := rfl

theorem keeps_withdrawn (x : Subject) (s : State) :
    KeepsAllBut [.hoists, .groups, .pacer] s (withdrawn x s) :=
  keeps_seq (keeps_forEach keeps_removeGoal _ _) (keeps_forEach keeps_unlinkMover _ _)

/-- A view of the state that no hoist, group or Pacer shows. -/
theorem withdrawn_same {β : Type} (view : State → β)
    (goal : ∀ slot s, view (removeGoal slot s) = view s)
    (unlink : ∀ m s, view (unlinkMover m s) = view s) (x : Subject) (s : State) :
    view (withdrawn x s) = view s :=
  (forEach_same view unlink _ _).trans (forEach_same view goal _ _)

theorem groupToIdle_same {β : Type} (view : State → β)
    (group : ∀ s g f, view (State.updateGroup s g f) = view s) (m : Mover) (s : State) :
    view (groupToIdle m s) = view s := by
  cases m with
  | hoist slot => rfl
  | group g => exact group s g _

theorem withdrawn_port (x : Subject) (s : State) : (withdrawn x s).port = s.port :=
  withdrawn_same State.port (fun _ _ => updateHoist_port ..)
    (fun m _ => groupToIdle_same State.port updateGroup_port m _) x s

theorem withdrawn_report (x : Subject) (s : State) : (withdrawn x s).report = s.report :=
  withdrawn_same State.report (fun _ _ => updateHoist_report ..)
    (fun m _ => groupToIdle_same State.report updateGroup_report m _) x s

theorem withdrawn_lines (x : Subject) (s : State) : (withdrawn x s).lines = s.lines :=
  withdrawn_same State.lines (fun _ _ => updateHoist_lines ..)
    (fun m _ => groupToIdle_same State.lines updateGroup_lines m _) x s

theorem hoistsBecome_withdrawn (x : Subject) (s : State) :
    HoistsBecome (fun slot h => if slot ∈ s.withdrawSlots x then { h with goal := none } else h) s
      (withdrawn x s) :=
  hoistsBecome_congr (hoistsBecome_removeGoals _ s)
    ((keeps_forEach keeps_unlinkMover _ _).same .hoists (by decide))

theorem moversLeave_withdrawn (x : Subject) (s : State) :
    MoversLeave (s.withdrawMovers x) s (withdrawn x s) := by
  have goals := keeps_forEach keeps_removeGoal (s.withdrawSlots x) s
  have pacer : (forEach removeGoal (s.withdrawSlots x) s).pacer = s.pacer :=
    goals.same .pacer (by decide)
  have groups : (forEach removeGoal (s.withdrawSlots x) s).groups = s.groups :=
    goals.same .groups (by decide)
  exact (moversLeave_forEach _ _).congr pacer.symm groups.symm rfl rfl

/-- A WITHDRAW of a subject in GUARD (R80). -/
theorem subjectWithdrawn_requestWrite {s : State} (h : s.requestReady) {x : Subject}
    (hm : dispatch ⟨8, s.port.arguments⟩ (requestInHand 8 s) =
      withdrawSubject x (requestInHand 8 s)) : SubjectWithdrawn x s (requestWrite 8 s) := by
  have slots : (requestInHand 8 s).withdrawSlots x = s.withdrawSlots x := by cases x <;> rfl
  have movers : (requestInHand 8 s).withdrawMovers x = s.withdrawMovers x := by cases x <;> rfl
  have count : (requestInHand 8 s).goalCount (s.withdrawSlots x) = (s.withdrawSlots x).countP
      fun slot => (s.hoist slot).any fun h => h.goal.isSome := goalCount_eq (requestInHand 8 s) _
  rw [withdrawSubject_eq, slots, count] at hm
  have ended : KeepsAllBut [.requests] (withdrawn x (requestInHand 8 s)) (requestWrite 8 s) := by
    rw [requestWrite_ready h, hm]
    exact keeps_trans (keeps_answer ..) (keeps_endOfEvent ..)
  have hoists := hoistsBecome_congr (hoistsBecome_withdrawn x (requestInHand 8 s))
    (ended.same .hoists (by decide))
  have left := (moversLeave_withdrawn x (requestInHand 8 s)).congr (s' := s) rfl rfl
    (ended.same .pacer (by decide)) (ended.same .groups (by decide))
  rw [slots] at hoists
  rw [movers] at left
  exact ⟨answered_of_effect h hm (withdrawn_port ..)
      ((keeps_withdrawn ..).same .requests (by decide)) (withdrawn_report ..) (withdrawn_lines ..),
    hoists, left.unlinked, left.stopped, left.batchNumber, left.settings,
    keeps_requestWrite h hm (keeps_withdrawn ..)⟩

/-! ### The tests of a WITHDRAW, in their order (R80) -/

section
variable {r : Request} {s : State}

theorem withdrawRequest_unnamed (h : ¬NamesKind r.arguments[0]) :
    withdrawRequest r s = s.answer .badArgument 0 := by
  simp only [withdrawRequest, subjectKind_unnamed h]

theorem withdrawRequest_outside_guard (named : NamesKind r.arguments[0])
    (outside : s.loader.gate ≠ .guard) : withdrawRequest r s = s.answer .refusedMode 0 := by
  obtain ⟨kind, hk, -⟩ := subjectKind_named named
  simp only [withdrawRequest, hk, if_pos outside]

theorem withdrawRequest_no_subject (named : NamesKind r.arguments[0])
    (guarded : s.loader.gate = .guard)
    (h : s.subjectOf r.arguments[0] r.arguments[1] = none) :
    withdrawRequest r s = s.answer .badArgument 0 := by
  obtain ⟨kind, hk, subject⟩ := subjectKind_named named
  simp only [withdrawRequest, hk, if_neg (not_not_intro guarded), subject, h]

theorem withdrawRequest_subject {x : Subject} (named : NamesKind r.arguments[0])
    (guarded : s.loader.gate = .guard)
    (h : s.subjectOf r.arguments[0] r.arguments[1] = some x) :
    withdrawRequest r s = withdrawSubject x s := by
  obtain ⟨kind, hk, subject⟩ := subjectKind_named named
  simp only [withdrawRequest, hk, if_neg (not_not_intro guarded), subject, h]

end

/-- Settles O20, by the tests of a WITHDRAW in their order. -/
theorem withdrawRemovesGoals : Obligations.WithdrawRemovesGoals := by
  intro s ready
  have dispatched : dispatch ⟨8, s.port.arguments⟩ (requestInHand 8 s) =
      withdrawRequest ⟨8, s.port.arguments⟩ (requestInHand 8 s) := rfl
  exact ⟨requestWrite 8 s, rfl,
    fun unnamed => refused_requestWrite ready (dispatched.trans (withdrawRequest_unnamed unnamed)),
    fun named outside => refused_requestWrite ready
      (dispatched.trans (withdrawRequest_outside_guard named outside)),
    fun named guarded nothing => refused_requestWrite ready
      (dispatched.trans (withdrawRequest_no_subject named guarded nothing)),
    fun _ named guarded subject => subjectWithdrawn_requestWrite ready
      (dispatched.trans (withdrawRequest_subject named guarded subject))⟩

end Sys2Proof.Proofs
end

section
/-! SUPPORT. The latch of the halt in GUARD (07 R123, R125; 09 R152, R153): hoists stand down,
movers leave, and the HALT batch is composed and placed at the Release Writer. -/

namespace Sys2Proof.Proofs

open Sys2Proof.Machine Sys2Proof.Laws

/-! ### Hoists changed one after the other -/

theorem hoistsBecome_trans {f g : Slot → Hoist → Hoist} {s t u : State} (h : HoistsBecome f s t)
    (k : HoistsBecome g t u) : HoistsBecome (fun slot x => g slot (f slot x)) s u := by
  intro slot
  rw [k slot, h slot, Option.map_map]
  rfl

theorem hoistsBecome_updateHoist (s : State) (slot : Slot) (f : Hoist → Hoist) :
    HoistsBecome (fun k h => if k = slot then f h else h) s (s.updateHoist slot f) := by
  intro k
  rw [hoist_updateHoist]
  by_cases e : k = slot
  · subst e; simp
  · simp [e]

theorem hoistsBecome_updateHoists (f : Hoist → Hoist) {slots : List Slot} (once : slots.Nodup)
    (s : State) : HoistsBecome (fun slot h => if slot ∈ slots then f h else h) s
      (forEach (fun slot => (State.updateHoist · slot f)) slots s) := by
  induction slots generalizing s with
  | nil => intro k; simp [forEach]
  | cons slot slots ih =>
    obtain ⟨first, once⟩ := List.nodup_cons.mp once
    intro k
    rw [forEach, hoistsBecome_trans (hoistsBecome_updateHoist s slot f) (ih once _) k]
    congr 1
    funext h
    by_cases e : k = slot
    · subst e; simp [first]
    · simp [e]

theorem present_of_hoistsBecome {f : Slot → Hoist → Hoist} {s t : State}
    (h : HoistsBecome f s t) : t.present = s.present := by
  funext slot
  simp [State.present, h slot]

/-! ### Standing down and the removal of all motion (R61, R84, R152) -/

/-- A hoist that has stood down (R61). -/
def lowered (confirmLimit : Nat) (h : Hoist) : Hoist :=
  if h.power.unbraked then h.fallToStandby confirmLimit else { h with runDemand := false }

theorem standDown_eq (slot : Slot) (s : State) :
    standDown slot s = s.updateHoist slot (lowered s.confirmFrames) := by
  unfold standDown
  congr 1
  funext h
  simp only [lowered]
  cases h.power <;> rfl

theorem standDowns_eq (slots : List Slot) (s : State) : forEach standDown slots s =
    forEach (fun slot => (State.updateHoist · slot (lowered s.confirmFrames))) slots s := by
  induction slots generalizing s with
  | nil => rfl
  | cons slot slots ih =>
    have limit : (standDown slot s).confirmFrames = s.confirmFrames := by
      simp [standDown_eq, State.confirmFrames]
    simp only [forEach]
    rw [ih, limit, standDown_eq]

/-- A hoist that has stood down with its goal removed (R84, R152). -/
def atRest (confirmLimit : Nat) (h : Hoist) : Hoist := { lowered confirmLimit h with goal := none }

@[simp] theorem atRest_runDemand (confirmLimit : Nat) (h : Hoist) :
    (atRest confirmLimit h).runDemand = false := by
  unfold atRest lowered; split <;> rfl

@[simp] theorem atRest_commanded (confirmLimit : Nat) (h : Hoist) :
    (atRest confirmLimit h).commanded = h.commanded := by
  unfold atRest lowered; split <;> rfl

@[simp] theorem atRest_syncDue (confirmLimit : Nat) (h : Hoist) :
    (atRest confirmLimit h).syncDue = h.syncDue := by
  unfold atRest lowered; split <;> rfl

/-- The rig with every hoist stood down, every goal gone and every mover unlinked. -/
def stilled (s : State) : State := removeAllMotion (forEach standDown allSlots s)

theorem hoistsBecome_stilled (s : State) :
    HoistsBecome (fun _ => atRest s.confirmFrames) s (stilled s) := by
  have down := hoistsBecome_updateHoists (lowered s.confirmFrames) (List.nodup_finRange 128) s
  rw [← allSlots, ← standDowns_eq] at down
  have still := hoistsBecome_trans down (hoistsBecome_removeGoals allSlots _)
  simp only [mem_allSlots, if_true] at still
  exact hoistsBecome_congr still ((keeps_forEach keeps_unlinkMover _ _).same .hoists (by decide))

theorem moversLeave_stilled (s : State) : MoversLeave s.linkedMovers s (stilled s) := by
  have lowering : KeepsAllBut [.hoists] s
      (forEach removeGoal allSlots (forEach standDown allSlots s)) :=
    keeps_trans (keeps_forEach keeps_standDown _ _) (keeps_forEach keeps_removeGoal _ _)
  have pacer : (forEach removeGoal allSlots (forEach standDown allSlots s)).pacer = s.pacer :=
    lowering.same .pacer (by decide)
  have linked : (forEach standDown allSlots s).linkedMovers = s.linkedMovers := by
    have down : (forEach standDown allSlots s).pacer = s.pacer :=
      (keeps_forEach keeps_standDown _ _).same .pacer (by decide)
    rw [State.linkedMovers, down, State.linkedMovers]
  have groups : (forEach removeGoal allSlots (forEach standDown allSlots s)).groups = s.groups :=
    lowering.same .groups (by decide)
  rw [stilled, removeAllMotion, linked]
  exact (moversLeave_forEach _ _).congr pacer.symm groups.symm rfl rfl

theorem writer_stilled (s : State) : (stilled s).writer = s.writer := by
  have goals := forEach_same (f := removeGoal) State.writer (fun _ _ => updateHoist_writer ..)
  have downs := forEach_same (f := standDown) State.writer (fun _ _ => updateHoist_writer ..)
  have movers := forEach_same (f := unlinkMover) State.writer
    (fun m _ => groupToIdle_same State.writer updateGroup_writer m _)
  exact (movers _ _).trans ((goals _ _).trans (downs _ _))

/-- Each mover of a queue is one of those linked. -/
theorem mem_linkedMovers {s : State} {q : QueueNo} {m : Mover} (h : m ∈ (s.queue q).movers) :
    m ∈ s.linkedMovers :=
  List.mem_flatMap.mpr ⟨s.queue q, by simp [State.queue], h⟩

/-! ### Records composed while no hoist has run demand (R48, R53, R125) -/

/-- No hoist has run demand, so that no sync lets one be released (R53). -/
def NoRunDemand (s : State) : Prop := ∀ slot h, s.hoist slot = some h → h.runDemand = false

theorem noRunDemand_of_hoistsBecome {f : Slot → Hoist → Hoist} {s t : State}
    (h : HoistsBecome f s t)
    (idle : ∀ slot x, s.hoist slot = some x → (f slot x).runDemand = false) : NoRunDemand t := by
  intro slot y hy
  rw [h slot] at hy
  obtain ⟨x, hx, rfl⟩ := Option.map_eq_some_iff.mp hy
  exact idle slot x hx

theorem tryRelease_of_noRunDemand {s : State} (still : NoRunDemand s) (slot : Slot) :
    tryRelease slot s = s := by
  unfold tryRelease
  split
  · rfl
  · rename_i h e
    exact if_neg (by simp [State.mayRelease, still slot h e])

/-- The record of a hoist, in a batch of a kind and with no speed hint (R48, R125). -/
def recordOf (kind : RecordKind) (slot : Slot) (h : Hoist) : SetpointRecord :=
  ⟨slot, h.commanded, h.command, if h.syncDue then .sync else kind, 0⟩

/-- A hoist whose record has been composed (R48). -/
def recorded (h : Hoist) : Hoist := { h with commandDirty := false, syncDue := false }

/-- A hoist at the latch event is one at rest with its record composed (R61, R84, R153). -/
theorem halted_eq (confirmLimit : Nat) (h : Hoist) :
    h.halted confirmLimit = recorded (atRest confirmLimit h) := rfl

theorem noRunDemand_recorded {s : State} (still : NoRunDemand s) (slot : Slot) :
    NoRunDemand (s.updateHoist slot recorded) :=
  noRunDemand_of_hoistsBecome (hoistsBecome_updateHoist s slot recorded) fun k x hx => by
    split <;> exact still k x hx

theorem composeRecord_of_noRunDemand {s : State} (still : NoRunDemand s) (kind : RecordKind)
    (slot : Slot) : composeRecord kind 0 slot s =
      ((s.hoist slot).map (recordOf kind slot), s.updateHoist slot recorded) := by
  have unreleased := tryRelease_of_noRunDemand (noRunDemand_recorded still slot) slot
  unfold composeRecord
  cases e : s.hoist slot with
  | none => simp [State.updateHoist, e]
  | some h =>
    simp only [Option.map_some, recordOf]
    by_cases due : h.syncDue = true
    · rw [if_pos due, if_pos due, if_pos due]
      exact congrArg (Prod.mk _) unreleased
    · rw [if_neg due, if_neg due, if_neg due]
      rfl

/-- Mathlib's `List.filterMap_congr`, for a module that is built without Mathlib. -/
theorem filterMap_eq_of_forall_mem {α β : Type} {f g : α → Option β} {l : List α}
    (h : ∀ x ∈ l, f x = g x) : l.filterMap f = l.filterMap g := by
  induction l with
  | nil => rfl
  | cons x l ih =>
    have rest := ih fun y hy => h y (List.mem_cons_of_mem x hy)
    rw [List.filterMap_cons, List.filterMap_cons, h x List.mem_cons_self, rest]

theorem composeRecords_of_noRunDemand {s : State} (still : NoRunDemand s) (kind : RecordKind)
    {slots : List Slot} (once : slots.Nodup) : composeRecords kind slots s =
      (slots.filterMap fun slot => (s.hoist slot).map (recordOf kind slot),
        forEach (fun slot => (State.updateHoist · slot recorded)) slots s) := by
  induction slots generalizing s with
  | nil => rfl
  | cons slot slots ih =>
    obtain ⟨first, once⟩ := List.nodup_cons.mp once
    have others : (slots.filterMap fun k =>
        ((s.updateHoist slot recorded).hoist k).map (recordOf kind k)) =
        slots.filterMap fun k => (s.hoist k).map (recordOf kind k) := by
      refine filterMap_eq_of_forall_mem fun k hk => ?_
      have apart : k ≠ slot := fun e => first (e ▸ hk)
      rw [hoist_updateHoist, if_neg apart]
    have rest := ih (noRunDemand_recorded still slot) once
    rw [others] at rest
    rw [composeRecords, composeRecord_of_noRunDemand still]
    cases e : s.hoist slot with
    | none => simp [rest, e, forEach]
    | some h => simp [rest, e, forEach]

/-! ### The HALT batch (R123, R125, R153) -/

/-- The hoists whose SYNC records a halt discards have sync due again (R118; log entry 31). -/
def resynced (s : State) : State := forEach resyncDiscarded s.writer.discarded s

theorem hoistsBecome_resyncDiscarded (r : SetpointRecord) (s : State) :
    HoistsBecome (fun slot h => { h with
      syncDue := h.syncDue || (r.slot = slot && r.kind = .sync) }) s (resyncDiscarded r s) := by
  intro slot
  unfold resyncDiscarded
  by_cases sync : r.kind = .sync
  · rw [if_pos sync, hoistsBecome_updateHoist s r.slot _ slot]
    by_cases e : slot = r.slot
    · subst e; simp [sync]
    · simp [e, Ne.symm e]
  · simp [sync]

theorem hoistsBecome_resyncAll (rs : List SetpointRecord) (s : State) :
    HoistsBecome (fun slot h => { h with
      syncDue := h.syncDue || rs.any fun r => r.slot = slot && r.kind = .sync }) s
      (forEach resyncDiscarded rs s) := by
  induction rs generalizing s with
  | nil => intro slot; simp [forEach]
  | cons r rs ih =>
    intro slot
    rw [forEach, hoistsBecome_trans (hoistsBecome_resyncDiscarded r s) (ih _) slot]
    simp [Bool.or_assoc]

/-- The SYNC records that a halt discards are those whose loss is seen between events (R123). -/
theorem any_sync_discarded (s : State) (slot : Slot) :
    (s.writer.discarded.any fun r => r.slot = slot && r.kind = .sync) = s.losesSync slot := by
  unfold ReleaseWriter.discarded State.losesSync BatchInHand.unbegun
  cases s.writer.state with
  | idle => rfl
  | starting => cases s.writer.hand <;> cases s.writer.following <;> simp
  | writing =>
    cases s.writer.following <;> cases s.writer.hand with
    | none => simp
    | some b => by_cases e : b.granted = 0 <;> simp [e]

theorem hoistsBecome_resynced (s : State) :
    HoistsBecome (fun slot h => { h with syncDue := h.syncDue || s.losesSync slot }) s
      (resynced s) := by
  have h := hoistsBecome_resyncAll s.writer.discarded s
  simp only [any_sync_discarded] at h
  exact h

theorem keeps_resynced (s : State) : KeepsAllBut [.hoists] s (resynced s) :=
  keeps_forEach keeps_resyncDiscarded _ _

theorem writer_resynced (s : State) : (resynced s).writer = s.writer := by
  refine forEach_same (f := resyncDiscarded) State.writer (fun r s => ?_) _ _
  unfold resyncDiscarded
  split
  · exact updateHoist_writer ..
  · rfl

theorem presentSlots_of_hoistsBecome {f : Slot → Hoist → Hoist} {s t : State}
    (h : HoistsBecome f s t) : t.presentSlots = s.presentSlots := by
  rw [State.presentSlots, present_of_hoistsBecome h, State.presentSlots]

theorem nodup_presentSlots (s : State) : s.presentSlots.Nodup := (List.nodup_finRange 128).filter _

/-- The records of the HALT batch, as they are composed. -/
def composedRecords (s : State) : List SetpointRecord :=
  s.presentSlots.filterMap fun slot => ((resynced s).hoist slot).map (recordOf .halt slot)

/-- The rig with a HALT record composed for every present hoist. -/
def composed (s : State) : State :=
  forEach (fun slot => (State.updateHoist · slot recorded)) s.presentSlots (resynced s)

theorem hoistsBecome_composed (s : State) :
    HoistsBecome (fun _ => recorded) s (composed s) := by
  intro slot
  rw [composed, hoistsBecome_trans (hoistsBecome_resynced s)
    (hoistsBecome_updateHoists recorded (nodup_presentSlots s) _) slot]
  cases e : s.hoist slot with
  | none => rfl
  | some h =>
    have listed : slot ∈ s.presentSlots := List.mem_filter.mpr ⟨mem_allSlots slot, by
      simp [State.present, e]⟩
    simp [listed, recorded]

theorem keeps_composed (s : State) : KeepsAllBut [.hoists] s (composed s) :=
  keeps_trans (keeps_resynced s)
    (keeps_forEach (fun slot s => keeps_updateHoist s slot recorded) _ _)

theorem pacer_composed (s : State) : (composed s).pacer = s.pacer :=
  (keeps_composed s).same .pacer (by decide)

theorem writer_composed (s : State) : (composed s).writer = s.writer :=
  (forEach_same State.writer (fun _ _ => updateHoist_writer ..) _ _).trans (writer_resynced s)

/-- The Release Writer with a HALT batch handed to it: in hand where it is IDLE or no word of the
batch in hand has been granted, and otherwise behind the record in hand (R123). -/
def withHaltBatch (b : Batch) (w : ReleaseWriter) : ReleaseWriter :=
  let alone : ReleaseWriter := { w with hand := some b.inHand, following := none, owed := [] }
  match w.state with
  | .idle => { w with state := .starting, hand := some b.inHand }
  | .starting => alone
  | .writing =>
    match w.hand with
    | none => alone
    | some h =>
      if h.granted = 0 then alone
      else { w with
        hand := some { h with
          records := h.records.take 1
          abandoned := h.abandoned || decide (1 < h.records.length) }
        following := some b
        owed := [] }

theorem composedRecords_eq_nil (s : State) : composedRecords s = [] ↔ s.presentSlots = [] := by
  refine ⟨fun empty => List.eq_nil_iff_forall_not_mem.mpr fun slot listed => ?_, fun absent => by
    rw [composedRecords, absent]; rfl⟩
  have present : s.present slot = true := (List.mem_filter.mp listed).2
  have absent := List.filterMap_eq_nil_iff.mp empty slot listed
  rw [Option.map_eq_none_iff, ← Option.not_isSome_iff_eq_none, ← State.present,
    present_of_hoistsBecome (hoistsBecome_resynced s)] at absent
  exact absent present

theorem composeRecords_resynced {s : State} (still : NoRunDemand s) :
    composeRecords .halt (resynced s).presentSlots (resynced s) =
      (composedRecords s, composed s) := by
  have becomes := hoistsBecome_resynced s
  rw [presentSlots_of_hoistsBecome becomes]
  exact composeRecords_of_noRunDemand (noRunDemand_of_hoistsBecome becomes still) _
    (nodup_presentSlots s)

theorem haltBatch_absent {s : State} (still : NoRunDemand s) (absent : s.presentSlots = []) :
    haltBatch s = composed s := by
  have records := composeRecords_resynced still
  rw [(composedRecords_eq_nil s).mpr absent, resynced] at records
  simp only [haltBatch, records]

theorem haltBatch_present {s : State} (still : NoRunDemand s) (present : s.presentSlots ≠ []) :
    haltBatch s = { composed s with
      pacer := { s.pacer with batchNumber := s.pacer.batchNumber + 1 }
      writer := withHaltBatch ⟨s.pacer.batchNumber + 1, composedRecords s⟩ s.writer } := by
  have records := composeRecords_resynced still
  obtain ⟨r, rs, e⟩ := List.exists_cons_of_ne_nil (mt (composedRecords_eq_nil s).mp present)
  rw [e, resynced] at records
  simp only [haltBatch, records, e, numberBatch, withHaltBatch, pacer_composed, writer_composed]
  cases state : s.writer.state with
  | idle => simp [handBatch]
  | starting => simp [handHaltBatch, state]
  | writing =>
    cases s.writer.hand with
    | none => simp [handHaltBatch, state]
    | some h =>
      by_cases unbegun : h.granted = 0
      · simp [unbegun, handHaltBatch, state]
      · simp [unbegun, haltAfterRecord, state]

/-! ### What the latch does in GUARD (R152, R153) -/

theorem noRunDemand_stilled (s : State) : NoRunDemand (stilled s) :=
  noRunDemand_of_hoistsBecome (hoistsBecome_stilled s) fun _ h _ =>
    atRest_runDemand s.confirmFrames h

theorem losesSync_stilled (s : State) (slot : Slot) :
    (stilled s).losesSync slot = s.losesSync slot := by
  rw [State.losesSync, writer_stilled, State.losesSync]

theorem presentSlots_stilled (s : State) : (stilled s).presentSlots = s.presentSlots :=
  presentSlots_of_hoistsBecome (hoistsBecome_stilled s)

theorem hoistsBecome_composed_stilled (s : State) :
    HoistsBecome (fun _ h => h.halted s.confirmFrames) s (composed (stilled s)) := by
  simp only [halted_eq]
  exact hoistsBecome_trans (f := fun _ => atRest s.confirmFrames) (hoistsBecome_stilled s)
    (hoistsBecome_composed _)

theorem haltEffects_eq (s : State) : haltEffects s = haltBatch (stilled s) := rfl

theorem haltEffects_absent {s : State} (absent : s.presentSlots = []) :
    haltEffects s = composed (stilled s) := by
  rw [haltEffects_eq]
  exact haltBatch_absent (noRunDemand_stilled s) ((presentSlots_stilled s).trans absent)

theorem haltEffects_present {s : State} (present : s.presentSlots ≠ []) :
    haltEffects s = { composed (stilled s) with
      pacer := { (stilled s).pacer with batchNumber := s.pacer.batchNumber + 1 }
      writer := withHaltBatch ⟨s.pacer.batchNumber + 1, composedRecords (stilled s)⟩
        s.writer } := by
  rw [haltEffects_eq, ← (moversLeave_stilled s).batchNumber, ← writer_stilled s]
  exact haltBatch_present (noRunDemand_stilled s) (by rwa [presentSlots_stilled])

theorem hoistsBecome_haltEffects (s : State) :
    HoistsBecome (fun _ h => h.halted s.confirmFrames) s (haltEffects s) := by
  refine hoistsBecome_congr (hoistsBecome_composed_stilled s) ?_
  by_cases absent : s.presentSlots = []
  · rw [haltEffects_absent absent]
  · rw [haltEffects_present absent]

theorem groups_haltEffects (s : State) : (haltEffects s).groups = (stilled s).groups := by
  rw [haltEffects_eq]
  exact (keeps_haltBatch _).same .groups (by decide)

theorem pacer_haltEffects (s : State) :
    ∃ n, (haltEffects s).pacer = { (stilled s).pacer with batchNumber := n } := by
  by_cases absent : s.presentSlots = []
  · rw [haltEffects_absent absent, pacer_composed]
    generalize (stilled s).pacer = p
    exact ⟨p.batchNumber, rfl⟩
  · rw [haltEffects_present absent]
    exact ⟨_, rfl⟩

/-- The records of the HALT batch, told by the hoists before and after the latch (R153). -/
theorem composedRecords_stilled {s t : State}
    (hoists : HoistsBecome (fun _ h => h.halted s.confirmFrames) s t) :
    composedRecords (stilled s) = haltRecords s t := by
  have becomes := hoistsBecome_trans (f := fun _ => atRest s.confirmFrames)
    (hoistsBecome_stilled s) (hoistsBecome_resynced _)
  rw [composedRecords, presentSlots_stilled, State.presentSlots, List.filterMap_filter]
  refine filterMap_eq_of_forall_mem fun slot _ => ?_
  rw [becomes slot, hoists slot]
  cases e : s.hoist slot with
  | none => simp
  | some h => simp [State.present, e, recordOf, halted_eq, recorded, losesSync_stilled]

theorem withHaltBatch_busy (b : Batch) (w : ReleaseWriter) : (withHaltBatch b w).state ≠ .idle := by
  unfold withHaltBatch
  cases state : w.state with
  | idle => simp
  | starting => simp
  | writing =>
    cases w.hand with
    | none => simp
    | some h => by_cases unbegun : h.granted = 0 <;> simp [unbegun]

/-- A Release Writer with the HALT batch of the present hoists handed to it. -/
theorem haltBatch_of_withHaltBatch {s t : State}
    (number : t.pacer.batchNumber = s.pacer.batchNumber + 1) (busy : t.writer.state ≠ .idle)
    (placed : samePart
      { s with writer := withHaltBatch ⟨s.pacer.batchNumber + 1, haltRecords s t⟩ s.writer }
      t .batches) : HaltBatch s t := by
  obtain ⟨owed, following, content⟩ := placed
  unfold withHaltBatch at owed following content
  unfold HaltBatch HaltBatch.Alone
  cases state : s.writer.state with
  | idle =>
    simp only [state] at content
    exact ⟨number, busy, content, fun h => absurd rfl h⟩
  | starting =>
    simp only [state] at owed content
    exact ⟨number, busy, content, fun _ => owed⟩
  | writing =>
    cases hand : s.writer.hand with
    | none =>
      simp only [state, hand] at owed content
      exact ⟨number, busy, content, fun _ => owed⟩
    | some h =>
      by_cases unbegun : h.granted = 0
      · simp only [state, hand, if_pos unbegun] at owed content ⊢
        exact ⟨number, busy, content, fun _ => owed⟩
      · simp only [state, hand, if_neg unbegun] at owed following content ⊢
        exact ⟨number, busy, ⟨content, following⟩, fun _ => owed⟩

/-- What the latch does in GUARD, seen in a state that has changed at most the halt since. -/
theorem rigHalted_of_haltEffects {s t : State} (enable : t.lines.enable = false)
    (kept : KeepsAllBut [.halt] (haltEffects s) t)
    (busy : (haltEffects s).writer.state ≠ .idle → t.writer.state ≠ .idle) : RigHalted s t := by
  obtain ⟨unlinked, stopped, number, settings⟩ := moversLeave_stilled s
  obtain ⟨n, numbered⟩ := pacer_haltEffects s
  have hoists := hoistsBecome_congr (hoistsBecome_haltEffects s) (kept.same .hoists (by decide))
  have pacerKept : t.pacer = (haltEffects s).pacer := kept.same .pacer (by decide)
  have pacer := pacerKept.trans numbered
  have groupsKept : t.groups = (haltEffects s).groups := kept.same .groups (by decide)
  have groups := groupsKept.trans (groups_haltEffects s)
  have batches := kept.same .batches (by decide)
  have leave : Unlinked s.linkedMovers s t := by
    simpa only [Unlinked, State.queue, pacer] using unlinked
  refine ⟨enable, hoists, ⟨leave, fun q => ?_⟩, ?_, ?_, ?_⟩
  · rw [(leave q).1, List.filter_eq_nil_iff]
    exact fun m listed => by simpa using mem_linkedMovers listed
  · simpa only [GroupsStopped, State.group, groups] using stopped
  · simpa only [PacerSettingsStand, pacer] using settings
  · by_cases absent : s.presentSlots = []
    · have effects := haltEffects_absent absent
      rw [if_pos absent]
      refine ⟨by rw [pacerKept, effects, pacer_composed, number], ?_⟩
      simpa only [samePart, effects, writer_composed, writer_stilled] using batches
    · have effects := haltEffects_present absent
      have records := composedRecords_stilled hoists
      rw [records] at effects
      rw [if_neg absent]
      refine haltBatch_of_withHaltBatch (by rw [pacerKept, effects]) (busy ?_) ?_
      · rw [effects]; exact withHaltBatch_busy _ _
      · simpa only [samePart, effects] using batches

end Sys2Proof.Proofs
end

section
/-! SUPPORT. Causes at the halt latch and the events of the stop channels (09 R147 to R154): what a
cause does by the latch and the gate, and what an opening, a closing and the eighth count of the
discrepancy come to. -/

namespace Sys2Proof.Proofs

open Sys2Proof.Machine Sys2Proof.Laws

/-! ### The end of an event with no result handed -/

/-- With no result handed at it the end of an event changes no part. -/
theorem keeps_endOfEvent_unanswered (before : State) {s : State}
    (unanswered : ∀ r, s.requests.state ≠ .answered r) :
    KeepsAllBut [] s (endOfEvent before s) := by
  refine ⟨fun p _ => ?_⟩
  by_cases e : p = .requests
  · subst e; exact requests_endOfEvent unanswered
  · exact (keeps_endOfEvent before s).same p (by simp [e])

theorem busy_releaseGranted (s : State) : (releaseGranted s).writer.state ≠ .idle := by
  simp [releaseGranted]

/-- A grant sets no Release Writer to IDLE (R124). -/
theorem busy_grantPort {s : State} (busy : s.writer.state ≠ .idle) :
    (grantPort s).writer.state ≠ .idle := by
  have pass (m : Mid) (rest : List Mid) : (grantPass m rest s).writer.state ≠ .idle := by
    unfold grantPass; dsimp only; split <;> exact busy
  have internal (c : Claimant) (addr : Addr) (op : AccessOp) :
      (grantInternal c addr op s).writer.state ≠ .idle := by
    cases c with
    | releaseWriter => exact busy_releaseGranted _
    | reportWriter => exact busy
    | rigLoader => exact busy
    | passThrough m => exact busy
  unfold grantPort
  repeat' split
  · exact busy
  · exact pass _ _
  · exact pass _ _
  · exact internal _ _ _
  · exact internal _ _ _
  · exact busy

theorem writer_claimReport (s : State) : (claimReport s).writer = s.writer := by
  unfold claimReport chooseReport claimMirrorOrSnapshot claimSnapshot
  repeat' split
  all_goals rfl

theorem writer_drawAwaited (s : State) : (drawAwaited s).writer = s.writer := by
  unfold drawAwaited
  split <;> rfl

/-- A Release Writer with a batch at an event still has one at its end (R124). -/
theorem busy_endOfEvent (before : State) {s : State} (busy : s.writer.state ≠ .idle) :
    (endOfEvent before s).writer.state ≠ .idle := by
  unfold endOfEvent
  split
  · exact busy
  · rw [driveLines_writer]
    refine busy_grantPort ?_
    rw [writer_claimReport, writer_drawAwaited, markChanges_writer]
    exact busy

/-! ### A cause at the latch (R151) -/

/-- The state as a cause meets it: the lines and the Halt Controller may have moved. -/
def withHalt (l : Lines) (x : HaltController) (s : State) : State :=
  { s with lines := l, halt := x }

/-- A cause taken into the Halt Controller, with its record handed over (R151). -/
def causeTaken (y : HaltController) (r : FaultRecord) (s : State) : State :=
  State.raise { s with halt := y } r

/-- The Halt Controller with the latch set by its first cause. -/
def latchedBy (c : HaltCause) (y : HaltController) : HaltController :=
  { y with latched := true, causes := HaltCauses.empty.add c }

/-- The Halt Controller with one more cause at a latch already set. -/
def joinedBy (c : HaltCause) (y : HaltController) : HaltController :=
  { y with causes := y.causes.add c }

section
variable {s : State} {c : HaltCause} (subject : Option Nat) (a b : Word)

theorem haltCause_standing (latched : s.halt.latched = true) (has : s.halt.causes.has c = true) :
    haltCause c subject a b s = s := by
  simp only [haltCause, latched, has, if_true]

theorem haltCause_joining (latched : s.halt.latched = true)
    (new : ¬s.halt.causes.has c = true) :
    haltCause c subject a b s = causeTaken (joinedBy c s.halt) ⟨.halt c, subject, a, b⟩ s := by
  simp only [haltCause, causeTaken, joinedBy, latched, if_true, if_neg new]

theorem haltCause_outside_guard (clear : ¬s.halt.latched = true)
    (outside : s.loader.gate ≠ .guard) :
    haltCause c subject a b s = causeTaken (latchedBy c s.halt) ⟨.halt c, subject, a, b⟩ s := by
  simp only [haltCause, causeTaken, latchedBy, if_neg clear, if_neg outside]

theorem haltCause_in_guard (clear : ¬s.halt.latched = true) (guarded : s.loader.gate = .guard) :
    haltCause c subject a b s =
      haltEffects (causeTaken (latchedBy c s.halt) ⟨.halt c, subject, a, b⟩ s) := by
  simp only [haltCause, causeTaken, latchedBy, if_neg clear, if_pos guarded]

end

theorem halt_haltEffects (s : State) : (haltEffects s).halt = s.halt :=
  (keeps_haltEffects s).same .halt (by decide)

theorem requests_haltCause (c : HaltCause) (subject : Option Nat) (a b : Word) (s : State) :
    (haltCause c subject a b s).requests = s.requests :=
  (keeps_haltCause c subject a b s).same .requests (by decide)

@[simp] theorem halt_causeTaken (y : HaltController) (r : FaultRecord) (s : State) :
    (causeTaken y r s).halt = y := raise_halt ..

/-- A cause changes the latch and its causes, and nothing else of the Halt Controller. -/
theorem halt_haltCause (c : HaltCause) (subject : Option Nat) (a b : Word) (s : State) :
    ∃ latched causes,
      (haltCause c subject a b s).halt = { s.halt with latched := latched, causes := causes } := by
  by_cases latched : s.halt.latched = true
  · by_cases has : s.halt.causes.has c = true
    · rw [haltCause_standing subject a b latched has]
      exact ⟨_, _, rfl⟩
    · rw [haltCause_joining subject a b latched has, halt_causeTaken]
      exact ⟨_, _, rfl⟩
  · by_cases guarded : s.loader.gate = .guard
    · rw [haltCause_in_guard subject a b latched guarded, halt_haltEffects, halt_causeTaken]
      exact ⟨_, _, rfl⟩
    · rw [haltCause_outside_guard subject a b latched guarded, halt_causeTaken]
      exact ⟨_, _, rfl⟩

/-- A record raised is one handed over (R168). -/
theorem handed_raise {s t : State} {r : FaultRecord} (queue : samePart (s.raise r) t .faultQueue) :
    Handed [r] s t := by
  obtain ⟨records, dropped⟩ := queue
  rw [Handed, records, dropped]
  simp only [List.foldl, handOver, State.raise]
  by_cases installed : s.loader.gate.installed = true
  · by_cases room : s.report.queue.length < 32
    · simp [installed, room, Config.reportQueueDepth]
    · simp [installed, room, Config.reportQueueDepth, Config.droppedTop]
  · simp [installed]

/-- Raising a record changes the reports alone. -/
theorem raise_eq (s : State) (r : FaultRecord) :
    s.raise r = { s with report := (s.raise r).report } := by
  unfold State.raise
  split
  · split <;> rfl
  · rfl

section
variable {s t : State} {l : Lines} {x y : HaltController} {r : FaultRecord}

/-- The record of a cause is handed over, whatever the lines and the halt (R151). -/
theorem handed_causeTaken
    (queue : samePart (causeTaken y r (withHalt l x s)) t .faultQueue) : Handed [r] s t :=
  handed_raise (s := { withHalt l x s with halt := y }) queue

/-- RigHalted reads neither the lines nor the halt nor the reports of the state before. -/
theorem rigHalted_of_causeTaken (h : RigHalted (causeTaken y r (withHalt l x s)) t) :
    RigHalted s t := by
  rw [causeTaken, raise_eq] at h
  obtain ⟨enable, hoists, movers, groups, pacer, batch⟩ := h
  exact ⟨enable, hoists, movers, groups, pacer, batch⟩

end

/-! ### What a cause comes to by the latch and the gate (R151, R152, R154) -/

/-- A state that has come from another with no part changed but the halt, its latch and causes
standing, the Release Writer not set to IDLE, and the lines shown. -/
structure SettlesFrom (s t : State) : Prop where
  kept : KeepsAllBut [.halt] s t
  latched : t.halt.latched = s.halt.latched
  causes : t.halt.causes = s.halt.causes
  busy : s.writer.state ≠ .idle → t.writer.state ≠ .idle
  lines : LinesShow t

theorem settlesFrom_endOfEvent (before : State) {s : State} {x : HaltController}
    (unanswered : ∀ r, s.requests.state ≠ .answered r) (latched : x.latched = s.halt.latched)
    (causes : x.causes = s.halt.causes) :
    SettlesFrom s (endOfEvent before { s with halt := x }) where
  kept := keeps_seq (keeps_halt s x) (keeps_endOfEvent_unanswered before unanswered)
  latched := by rw [halt_endOfEvent]; exact latched
  causes := by rw [halt_endOfEvent]; exact causes
  busy := busy_endOfEvent before (s := { s with halt := x })
  lines := linesShow_endOfEvent ..

/-- A latch set by its first cause while the part runs shows on both lines (R155, R156). -/
theorem lines_latched {t : State} {c : HaltCause} (lines : LinesShow t)
    (latched : t.halt.latched = true) (causes : t.halt.causes = HaltCauses.empty.add c) :
    t.lines.enable = false ∧ t.lines.fault = true := by
  obtain ⟨enable, fault, -⟩ := lines
  refine ⟨by simp [enable, State.enabled, latched], ?_⟩
  rw [fault, State.inTrouble, latched, causes]
  cases c <;> simp [HaltCauses.add]

section
variable {s t : State} {l : Lines} {x : HaltController} {c : HaltCause} {subject : Option Nat}
  {a b : Word} {changed : List Part}
  (entered : KeepsAllBut (.halt :: changed) s (withHalt l x s))
include entered

theorem keeps_causeTaken {y : HaltController} {r : FaultRecord} :
    KeepsAllBut (.halt :: .faultQueue :: changed) s (causeTaken y r (withHalt l x s)) :=
  keeps_trans (keeps_mono entered (List.cons_subset_cons _ (List.subset_cons_self ..)))
    (keeps_seq (keeps_halt _ y) (keeps_raise ..) (by simp) (by simp))

/-- A cause handed to the latch between events, by the latch and the gate it meets. -/
theorem causeLatched_of_haltCause (latched : x.latched = s.halt.latched)
    (causes : x.causes = s.halt.causes)
    (settled : SettlesFrom (haltCause c subject a b (withHalt l x s)) t) :
    CauseLatched c subject a b changed s t := by
  unfold CauseLatched
  rw [← latched, ← causes]
  by_cases set : x.latched = true
  · by_cases has : x.causes.has c = true
    · rw [haltCause_standing subject a b (s := withHalt l x s) set has] at settled
      obtain ⟨kept, latchStands, causesStand, -, -⟩ := settled
      rw [if_pos set, if_pos has]
      exact ⟨latchStands.trans set, causesStand, keeps_trans entered (keeps_mono kept (by simp))⟩
    · rw [haltCause_joining subject a b (s := withHalt l x s) set has] at settled
      obtain ⟨kept, latchStands, causesStand, -, -⟩ := settled
      rw [halt_causeTaken] at latchStands causesStand
      rw [if_pos set, if_neg has]
      exact ⟨latchStands.trans set, causesStand,
        handed_causeTaken (kept.same .faultQueue (by decide)),
        keeps_trans (keeps_causeTaken entered) (keeps_mono kept (by simp))⟩
  · rw [if_neg set]
    by_cases guarded : s.loader.gate = .guard
    · rw [haltCause_in_guard subject a b (s := withHalt l x s) set guarded] at settled
      obtain ⟨kept, latchStands, causesStand, busy, lines⟩ := settled
      rw [halt_haltEffects, halt_causeTaken] at latchStands causesStand
      obtain ⟨enable, fault⟩ := lines_latched lines latchStands causesStand
      have effects := keeps_seq (c := [.halt, .pacer, .groups, .hoists, .batches])
        (keeps_haltEffects _) kept
      rw [if_pos guarded]
      exact ⟨latchStands, causesStand, handed_causeTaken (effects.same .faultQueue (by decide)),
        enable, fault, rigHalted_of_causeTaken (rigHalted_of_haltEffects enable kept busy),
        keeps_seq (keeps_causeTaken entered) effects
          (List.cons_subset_cons _ (List.cons_subset_cons _ fun _ h => by simp [h])) (by simp)⟩
    · rw [haltCause_outside_guard subject a b (s := withHalt l x s) set guarded] at settled
      obtain ⟨kept, latchStands, causesStand, -, lines⟩ := settled
      rw [halt_causeTaken] at latchStands causesStand
      obtain ⟨enable, fault⟩ := lines_latched lines latchStands causesStand
      rw [if_neg guarded]
      exact ⟨latchStands, causesStand, handed_causeTaken (kept.same .faultQueue (by decide)),
        enable, fault, keeps_trans (keeps_causeTaken entered) (keeps_mono kept (by simp))⟩

end

/-! ### Agreement of the channels (R148, R149, R150) -/

theorem agree_apart {h : HaltController} (apart : h.channelA ≠ h.channelB) : h.agree = h := by
  unfold HaltController.agree
  split
  · rename_i a b; exact absurd (a.trans b.symm) apart
  · rename_i a b; exact absurd (a.trans b.symm) apart
  · rfl
  · rfl

theorem agree_alike {h : HaltController} {x : ChannelState} (a : h.channelA = x)
    (b : h.channelB = x) : h.agree = { h with
      discrepancy := 0
      cycle :=
        if h.cycle = .awaitOpen ∧ x = .opened then .awaitClose
        else if h.cycle = .awaitClose ∧ x = .closed then .notRequired
        else h.cycle } := by
  unfold HaltController.agree
  cases x <;> simp [a, b]

/-- Agreement moves neither the latch, its causes nor a channel. -/
theorem agree_stands (h : HaltController) : h.agree.latched = h.latched ∧
    h.agree.causes = h.causes ∧ ∀ c, h.agree.channel c = h.channel c := by
  by_cases alike : h.channelA = h.channelB
  · rw [agree_alike alike rfl]
    exact ⟨rfl, rfl, fun c => by cases c <;> rfl⟩
  · rw [agree_apart alike]
    exact ⟨rfl, rfl, fun _ => rfl⟩

theorem channel_setChannel (h : HaltController) (c k : Channel) (x : ChannelState) :
    (h.setChannel c x).channel k = if k = c then x else h.channel k := by
  cases c <;> cases k <;> rfl

/-- A channel moved, and then the test for agreement. -/
theorem channelMoved_agree {s t : State} {c : Channel} {x : ChannelState} {h : HaltController}
    (halt : t.halt = h.agree)
    (channels : ∀ k, h.channel k = if k = c then x else s.halt.channel k)
    (discrepancy : h.discrepancy = s.halt.discrepancy) (cycle : h.cycle = s.halt.cycle) :
    ChannelMoved c x s t := by
  obtain ⟨-, -, stands⟩ := agree_stands h
  refine ⟨by simp [halt, stands, channels], fun k other => by simp [halt, stands, channels, other],
    ?_⟩
  have channelA : t.halt.channelA = h.channelA := by rw [halt]; exact stands .a
  have channelB : t.halt.channelB = h.channelB := by rw [halt]; exact stands .b
  have moved : h.channel c = x := by simp [channels]
  rw [channelA, channelB]
  by_cases alike : h.channelA = h.channelB
  · have level : h.channelA = x := by
      cases c
      · exact moved
      · exact alike.trans moved
    rw [if_pos alike, halt, agree_alike level (alike.symm.trans level), ← cycle]
    exact ⟨rfl, rfl⟩
  · rw [if_neg alike, halt, agree_apart alike]
    exact ⟨discrepancy, cycle⟩

/-! ### The stop lines (R147) -/

theorem setStopLine_eq (c : Channel) (x : ChannelState) (s : State) :
    setStopLine c x s = { s with lines := (setStopLine c x s).lines } := by
  cases c <;> rfl

theorem stop_setStopLine (c : Channel) (x : ChannelState) (s : State) :
    (setStopLine c x s).lines.stop c = x := by
  cases c <;> rfl

theorem keeps_setStopLine (c : Channel) (x : ChannelState) (s : State) :
    KeepsAllBut [.lineLevels] s (setStopLine c x s) := by
  refine ⟨fun p hp => ?_⟩
  rw [setStopLine_eq]
  cases p <;> simp_all [samePart]

/-- A channel that follows its line stands at the line's level while RESET is low (R147). -/
theorem channel_of_follows {s : State} (follows : ChannelsFollowLines s)
    (low : s.lines.reset = false) (c : Channel) : s.halt.channel c = s.lines.stop c := by
  obtain ⟨a, b⟩ := follows low
  cases c
  · exact a
  · exact b

/-- What follows the movement of a line leaves the levels of the stop lines. -/
theorem stop_of_keeps {s t : State} (levels : samePart s t .lineLevels) (c : Channel) :
    t.lines.stop c = s.lines.stop c := by
  obtain ⟨a, b, -⟩ := levels
  cases c
  · exact a
  · exact b

/-! ### The commands of the stop channels (R147, R148) -/

section
variable {s : State} {c : Channel}

theorem exec_stopChannelOpens_again (level : s.lines.stop c = .opened) :
    exec (.stopChannelOpens c) s = .next s := if_pos level

theorem exec_stopChannelCloses_again (level : s.lines.stop c = .closed) :
    exec (.stopChannelCloses c) s = .next s := if_pos level

theorem exec_stopChannelOpens (level : s.lines.stop c = .closed) :
    exec (.stopChannelOpens c) s = .next (event (stopLineOpens c) s) :=
  if_neg (by simp [level])

theorem exec_stopChannelCloses (level : s.lines.stop c = .opened) :
    exec (.stopChannelCloses c) s = .next (event (stopLineCloses c) s) :=
  if_neg (by simp [level])

theorem stopLineOpens_high (high : s.lines.reset = true) :
    stopLineOpens c s = setStopLine c .opened s := if_pos (.inl high)

theorem stopLineCloses_high (high : s.lines.reset = true) :
    stopLineCloses c s = setStopLine c .closed s := if_pos (.inl high)

theorem stopLineOpens_low (low : s.lines.reset = false) (channel : s.halt.channel c = .closed) :
    stopLineOpens c s = channelOpens c (setStopLine c .opened s) :=
  if_neg (by simp [low, channel])

theorem stopLineCloses_low (low : s.lines.reset = false) (channel : s.halt.channel c = .opened) :
    stopLineCloses c s = channelCloses c (setStopLine c .closed s) :=
  if_neg (by simp [low, channel])

end

/-- A line that moves while RESET is asserted moves alone (R147). -/
theorem lineMoved_alone {s : State} (unanswered : ∀ r, s.requests.state ≠ .answered r)
    (c : Channel) (x : ChannelState) :
    (endOfEvent s (setStopLine c x s)).lines.stop c = x ∧
      KeepsAllBut [.lineLevels] s (endOfEvent s (setStopLine c x s)) := by
  have same : (setStopLine c x s).requests = s.requests :=
    (keeps_setStopLine c x s).same .requests (by decide)
  have ended := keeps_endOfEvent_unanswered s (s := setStopLine c x s) (by rwa [same])
  exact ⟨(stop_of_keeps (ended.same .lineLevels (by decide)) c).trans (stop_setStopLine c x s),
    keeps_seq (keeps_setStopLine c x s) ended (by simp) (by simp)⟩

/-! ### An opening (R148, R151) -/

/-- The state as an opening's cause meets it: the line and the channel have moved. -/
def opening (c : Channel) (s : State) : State :=
  withHalt (setStopLine c .opened s).lines (s.halt.setChannel c .opened) s

/-- An opening with its cause handed to the latch, before the test for agreement. -/
def openingCaused (c : Channel) (s : State) : State :=
  haltCause .stopOpened none (if c = .a then 0 else 1) s.report.frameCount (opening c s)

theorem channelOpens_setStopLine (c : Channel) (s : State) :
    channelOpens c (setStopLine c .opened s) =
      { openingCaused c s with halt := (openingCaused c s).halt.agree } := by
  cases c <;> rfl

theorem keeps_opening (c : Channel) (s : State) :
    KeepsAllBut [.halt, .lineLevels] s (opening c s) := by
  have moved : opening c s =
      { setStopLine c .opened s with halt := s.halt.setChannel c .opened } := by
    rw [setStopLine_eq]; rfl
  rw [moved]
  exact keeps_seq (keeps_setStopLine c .opened s) (keeps_halt ..)

theorem setChannel_stands (h : HaltController) (c : Channel) (x : ChannelState) :
    (h.setChannel c x).latched = h.latched ∧ (h.setChannel c x).causes = h.causes ∧
      (h.setChannel c x).discrepancy = h.discrepancy ∧ (h.setChannel c x).cycle = h.cycle := by
  cases c <;> exact ⟨rfl, rfl, rfl, rfl⟩

/-- The latch and its causes are no part of what a channel event reads. -/
theorem channel_latch (h : HaltController) (latched : Bool) (causes : HaltCauses) (k : Channel) :
    ({ h with latched := latched, causes := causes } : HaltController).channel k = h.channel k := by
  cases k <;> rfl

/-- A channel opens: STOP_OPENED is handed to the latch, and agreement is tested (R148 to R151). -/
theorem channelOpened {s : State} (unanswered : ∀ r, s.requests.state ≠ .answered r)
    (c : Channel) :
    let t := endOfEvent s (channelOpens c (setStopLine c .opened s))
    t.lines.stop c = .opened ∧ ChannelMoved c .opened s t ∧
      CauseLatched .stopOpened none (if c = .a then 0 else 1) s.report.frameCount [.lineLevels]
        s t := by
  have requests : (openingCaused c s).requests = s.requests := requests_haltCause ..
  have levels : samePart (opening c s) (openingCaused c s) .lineLevels :=
    (keeps_haltCause ..).same .lineLevels (by decide)
  obtain ⟨latchStands, causesStand, -⟩ := agree_stands (openingCaused c s).halt
  have settled := settlesFrom_endOfEvent s (x := (openingCaused c s).halt.agree)
    (by rwa [requests]) latchStands causesStand
  obtain ⟨latched, causes, discrepancy, cycle⟩ := setChannel_stands s.halt c .opened
  obtain ⟨latched', causes', halt⟩ := halt_haltCause .stopOpened none (if c = .a then 0 else 1)
    s.report.frameCount (opening c s)
  rw [channelOpens_setStopLine]
  refine ⟨?_, channelMoved_agree (halt_endOfEvent ..) (fun k => ?_) ?_ ?_,
    causeLatched_of_haltCause (keeps_opening c s) latched causes settled⟩
  · have ended := samePart_trans levels (settled.kept.same .lineLevels (by decide))
    exact (stop_of_keeps ended c).trans (stop_setStopLine c .opened s)
  · rw [openingCaused, halt, channel_latch]
    exact channel_setChannel ..
  · rw [openingCaused, halt]; exact discrepancy
  · rw [openingCaused, halt]; exact cycle

/-! ### A closing (R148) -/

/-- A channel closes: no cause changes, and agreement is tested (R148 to R150). -/
theorem channelClosed {s : State} (unanswered : ∀ r, s.requests.state ≠ .answered r)
    (c : Channel) :
    let t := endOfEvent s (channelCloses c (setStopLine c .closed s))
    t.lines.stop c = .closed ∧ ChannelMoved c .closed s t ∧ t.halt.latched = s.halt.latched ∧
      t.halt.causes = s.halt.causes ∧ KeepsAllBut [.lineLevels, .halt] s t := by
  have halt : (setStopLine c .closed s).halt = s.halt :=
    (keeps_setStopLine c .closed s).same .halt (by decide)
  have closed : KeepsAllBut [.lineLevels, .halt] s (channelCloses c (setStopLine c .closed s)) :=
    keeps_seq (keeps_setStopLine c .closed s) (keeps_halt ..)
  have requests : (channelCloses c (setStopLine c .closed s)).requests = s.requests :=
    closed.same .requests (by decide)
  have ended := keeps_endOfEvent_unanswered s (s := channelCloses c (setStopLine c .closed s))
    (by rwa [requests])
  have agreed : (endOfEvent s (channelCloses c (setStopLine c .closed s))).halt =
      (s.halt.setChannel c .closed).agree := by
    rw [halt_endOfEvent, channelCloses, halt]
  obtain ⟨latchStands, causesStand, -⟩ := agree_stands (s.halt.setChannel c .closed)
  obtain ⟨latched, causes, discrepancy, cycle⟩ := setChannel_stands s.halt c .closed
  refine ⟨?_, channelMoved_agree agreed (fun k => channel_setChannel ..) discrepancy cycle, ?_, ?_,
    keeps_seq closed ended (by simp) (by simp)⟩
  · exact (stop_of_keeps (ended.same .lineLevels (by decide)) c).trans
      (stop_setStopLine c .closed s)
  · rw [agreed, latchStands, latched]
  · rw [agreed, causesStand, causes]

/-- Settles O46: an event at its level leaves the state, a line moves alone under RESET, and with
RESET low its channel moves with it; an opening's cause then meets the latch. -/
theorem stopChannelsFollowTheirLines : Obligations.StopChannelsFollowTheirLines := by
  rintro s c ⟨unanswered, -⟩ follows
  refine ⟨exec_stopChannelOpens_again, exec_stopChannelCloses_again, fun level => ?_,
    fun level => ?_⟩
  · refine ⟨_, exec_stopChannelOpens level, ?_⟩
    rw [event]
    cases reset : s.lines.reset with
    | true =>
      rw [stopLineOpens_high reset]
      obtain ⟨moved, alone⟩ := lineMoved_alone unanswered c .opened
      exact ⟨moved, fun _ => alone, by simp⟩
    | false =>
      rw [stopLineOpens_low reset ((channel_of_follows follows reset c).trans level)]
      obtain ⟨moved, opened⟩ := channelOpened unanswered c
      exact ⟨moved, by simp, fun _ => opened⟩
  · refine ⟨_, exec_stopChannelCloses level, ?_⟩
    rw [event]
    cases reset : s.lines.reset with
    | true =>
      rw [stopLineCloses_high reset]
      obtain ⟨moved, alone⟩ := lineMoved_alone unanswered c .closed
      exact ⟨moved, fun _ => alone, by simp⟩
    | false =>
      rw [stopLineCloses_low reset ((channel_of_follows follows reset c).trans level)]
      obtain ⟨moved, closed⟩ := channelClosed unanswered c
      exact ⟨moved, by simp, fun _ => closed⟩

/-! ### The eighth count of the discrepancy (R149) -/

/-- The Halt Controller at the eighth count: a cycle is required (R149, R150). -/
def eighthCount (h : HaltController) : HaltController :=
  { h with discrepancy := 8, cycle := .awaitOpen }

/-- The eighth count with its cause handed to the latch. -/
def eighthCaused (s : State) : State :=
  haltCause .stopDiscrepancy none (if s.halt.channelA = .opened then 0 else 1) 8
    (withHalt s.lines (eighthCount s.halt) s)

theorem discrepancyCount_eighth {s : State} (apart : s.halt.channelA ≠ s.halt.channelB)
    (seven : s.halt.discrepancy = 7) : discrepancyCount s = eighthCaused s := by
  have value : BitVec.ofNat 32 (channelCode s.halt.openChannel) =
      if s.halt.channelA = .opened then 0 else 1 := by
    unfold HaltController.openChannel; split <;> rfl
  have reached : discrepancyCount s = discrepancyReached s := by
    simp [discrepancyCount, apart, seven, Config.discrepancyLimit]
  rw [reached, discrepancyReached, value]
  rfl

theorem exec_stopDiscrepancy_eighth {s : State} (low : s.lines.reset = false)
    (apart : s.halt.channelA ≠ s.halt.channelB) (seven : s.halt.discrepancy = 7) :
    exec .stopDiscrepancy s = .next (endOfEvent s (eighthCaused s)) := by
  rw [← discrepancyCount_eighth apart seven]
  exact if_pos (by simp [State.discrepancyDue, low, apart, seven, Config.discrepancyLimit])

/-- Settles O47: the eighth count moves the count and the cycle, and its cause meets the latch. -/
theorem stopDiscrepancyLatches : Obligations.StopDiscrepancyLatches := by
  rintro s ⟨unanswered, -⟩ low apart seven
  have requests : (eighthCaused s).requests = s.requests := requests_haltCause ..
  have settled := settlesFrom_endOfEvent s (x := (eighthCaused s).halt) (by rwa [requests]) rfl rfl
  obtain ⟨latched, causes, counted⟩ := halt_haltCause .stopDiscrepancy none
    (if s.halt.channelA = .opened then 0 else 1) 8 (withHalt s.lines (eighthCount s.halt) s)
  have halt : (endOfEvent s (eighthCaused s)).halt =
      { eighthCount s.halt with latched := latched, causes := causes } :=
    (halt_endOfEvent ..).trans counted
  refine ⟨_, exec_stopDiscrepancy_eighth low apart seven, by rw [halt]; rfl, by rw [halt]; rfl,
    by rw [halt]; rfl, by rw [halt]; rfl,
    causeLatched_of_haltCause (keeps_halt s (eighthCount s.halt)) rfl rfl settled⟩

end Sys2Proof.Proofs
end

section
/-! SUPPORT. CLEAR_FAULT for a hoist (08 R143, R144): the causes that go, the return of the hoist's
group when the set becomes empty (06 R106), and the tests of the request in their order. -/

namespace Sys2Proof.Proofs

open Sys2Proof.Machine Sys2Proof.Laws

/-! ### The causes that CLEAR_FAULT removes (R144) -/

/-- The bounds of LIMIT_OVERRUN in the model and in the statement (R136). -/
theorem passesLimit_eq_pastItsLimits (h : Hoist) (measured : Int) :
    h.passesLimit measured = h.pastItsLimits measured := by
  simp only [Hoist.passesLimit, Hoist.passesLower, Hoist.pastItsLimits, Hoist.tooLow,
    Bool.decide_or]
  rfl

/-- The model's removal tests are those of the statement, turned round. -/
theorem clears_eq_not_staysFaulted (h : Hoist) (statusTimeout : Nat) (c : HoistCause) :
    h.clears statusTimeout c = !h.staysFaulted statusTimeout c := by
  cases c with
  | overload =>
    cases load : h.load with
    | none => simp only [Hoist.clears, Hoist.staysFaulted, load, Option.any_none, Bool.not_false]
    | some w =>
      simp only [Hoist.clears, Hoist.staysFaulted, load, Option.any_some, ← decide_not, Nat.not_lt]
  | statusLost => simp only [Hoist.clears, Hoist.staysFaulted, ← decide_not, Nat.not_le]
  | driveFault => exact (Option.not_isSome h.driveCode).symm
  | limitOverrun =>
    cases measured : h.measured with
    | none =>
      simp only [Hoist.clears, Hoist.staysFaulted, measured, Option.any_none, Bool.not_false]
    | some p =>
      simp only [Hoist.clears, Hoist.staysFaulted, measured, Option.any_some,
        passesLimit_eq_pastItsLimits]
  | slack | follow | stateMismatch | confirmTimeout => rfl

theorem mem_allHoistCauses (c : HoistCause) : c ∈ allHoistCauses := by cases c <;> decide

/-- Taking causes out of a set one after the other. -/
theorem has_foldl_put_false (p : HoistCause → Bool) (cs : List HoistCause) (x : HoistCauses)
    (k : HoistCause) :
    (cs.foldl (fun x c => if p c then x.put c false else x) x).has k =
      (x.has k && !(decide (k ∈ cs) && p k)) := by
  induction cs generalizing x with
  | nil => simp only [List.foldl_nil, List.not_mem_nil, decide_false, Bool.false_and,
      Bool.not_false, Bool.and_true]
  | cons c cs ih =>
    have once : (if p c then x.put c false else x).has k =
        (x.has k && !(decide (k = c) && p k)) := by
      by_cases e : k = c
      · subst e
        cases passes : p k with
        | false => simp only [Bool.false_eq_true, if_false, Bool.and_false, Bool.not_false,
            Bool.and_true]
        | true => simp only [if_true, causes_has_put, decide_true, Bool.and_true, Bool.not_true,
            Bool.and_false]
      · have stays : (if p c then x.put c false else x).has k = x.has k := by
          split
          · rw [causes_has_put, if_neg e]
          · rfl
        simp only [stays, e, decide_false, Bool.false_and, Bool.not_false, Bool.and_true]
    rw [List.foldl_cons, ih, once]
    simp only [List.mem_cons, Bool.decide_or, Bool.and_assoc, Bool.and_or_distrib_right,
      Bool.not_or]

theorem has_causesLeft (h : Hoist) (statusTimeout : Nat) (c : HoistCause) :
    (h.causesLeft statusTimeout).has c = (h.causes.has c && h.staysFaulted statusTimeout c) := by
  rw [Hoist.causesLeft, has_foldl_put_false, clears_eq_not_staysFaulted,
    decide_eq_true (mem_allHoistCauses c), Bool.true_and, Bool.not_not]

/-! ### The return of a group (R106) -/

theorem faultedMembers_eq_zero {s : State} {g : GroupNo} {r : TrussGroup}
    (group : s.group g = some r) :
    s.faultedMembers g = 0 ↔ ∀ m ∈ r.members, s.faulted m = false := by
  simp only [State.faultedMembers, State.members, group, List.countP_eq_zero, Bool.not_eq_true]

/-- A RETRY group that has counted its hold out, with no member faulted (R106). -/
abbrev Quiet (s : State) (r : TrussGroup) : Prop :=
  r.state = .held ∧ r.policy = .retry ∧ r.retry = 0 ∧ ∀ m ∈ r.members, s.faulted m = false

theorem returnIfQuiet_returns {s : State} {g : GroupNo} {r : TrussGroup}
    (group : s.group g = some r) (quiet : Quiet s r) :
    returnIfQuiet g s = s.updateGroup g TrussGroup.returnToIdle := by
  simp only [returnIfQuiet, group, faultedMembers_eq_zero group]
  exact if_pos quiet

theorem returnIfQuiet_stays {s : State} {g : GroupNo}
    (unquiet : ∀ r, s.group g = some r → ¬Quiet s r) : returnIfQuiet g s = s := by
  cases group : s.group g with
  | none => simp only [returnIfQuiet, group]
  | some r =>
    simp only [returnIfQuiet, group, faultedMembers_eq_zero group]
    exact if_neg (unquiet r group)

theorem group_returnIfQuiet_other {g k : GroupNo} (s : State) (other : k ≠ g) :
    (returnIfQuiet g s).group k = s.group k := by
  by_cases returns : ∃ r, s.group g = some r ∧ Quiet s r
  · obtain ⟨r, group, quiet⟩ := returns
    rw [returnIfQuiet_returns group quiet, group_updateGroup, if_neg other]
  · rw [returnIfQuiet_stays fun r group quiet => returns ⟨r, group, quiet⟩]

theorem group_returnIfQuiet_self (g : GroupNo) (s : State) :
    (returnIfQuiet g s).group g =
      (s.group g).map fun r => if Quiet s r then r.returnToIdle else r := by
  cases group : s.group g with
  | none =>
    have stays : returnIfQuiet g s = s :=
      returnIfQuiet_stays fun _ same => nomatch group.symm.trans same
    rw [stays, group]
    rfl
  | some r =>
    rw [Option.map_some]
    by_cases quiet : Quiet s r
    · rw [returnIfQuiet_returns group quiet, group_updateGroup, if_pos rfl, group, if_pos quiet]
      rfl
    · have stays : returnIfQuiet g s = s :=
        returnIfQuiet_stays fun _ same => Option.some.inj (group.symm.trans same) ▸ quiet
      rw [stays, group, if_neg quiet]

theorem withGroup_eq {slot : Slot} {h : Hoist} {g : GroupNo} {s : State}
    (present : s.hoist slot = some h) (member : h.group = some g) (f : GroupNo → State → State) :
    withGroup slot f s = f g s := by
  simp only [withGroup, present, member]

theorem withGroup_of_ungrouped {slot : Slot} {h : Hoist} {s : State}
    (present : s.hoist slot = some h) (alone : h.group = none) (f : GroupNo → State → State) :
    withGroup slot f s = s := by
  simp only [withGroup, present, alone]

/-! ### The effect of an accepted CLEAR_FAULT (R144) -/

section
variable {slot : Slot} {h : Hoist} {s : State}

/-- The causes that pass no removal test. -/
abbrev causesStaying (h : Hoist) (s : State) : HoistCauses :=
  h.causesLeft (s.statusTimeout.getD 0)

/-- The hoist with the causes that stay. -/
def causesCleared (slot : Slot) (h : Hoist) (s : State) : State :=
  s.updateHoist slot fun x => { x with causes := causesStaying h s }

/-- An accepted CLEAR_FAULT before its answer: the causes go, and where they were the last, the
hoist's group may return. -/
def hoistCleared (slot : Slot) (h : Hoist) (s : State) : State :=
  if causesStaying h s = .empty ∧ h.causes ≠ .empty then
    withGroup slot returnIfQuiet (causesCleared slot h s)
  else causesCleared slot h s

theorem clearHoist_emptied (present : s.hoist slot = some h)
    (emptied : causesStaying h s = .empty) :
    clearHoist slot s =
      (hoistCleared slot h s).answer .done (BitVec.ofNat 32 h.causes.count) := by
  by_cases had : h.causes = .empty
  · rw [hoistCleared, if_neg fun both => both.2 had]
    simp only [clearHoist, present, (causes_isEmpty_iff _).mpr emptied,
      (causes_isEmpty_iff _).mpr had]
    rfl
  · rw [hoistCleared, if_pos ⟨emptied, had⟩]
    simp only [clearHoist, present, (causes_isEmpty_iff _).mpr emptied,
      mt (causes_isEmpty_iff _).mp had]
    rfl

theorem clearHoist_remaining (present : s.hoist slot = some h)
    (remaining : causesStaying h s ≠ .empty) :
    clearHoist slot s = (hoistCleared slot h s).answer .refusedFault
      (causesWord (causesStaying h s)) := by
  rw [hoistCleared, if_neg fun both => remaining both.1]
  simp only [clearHoist, present, mt (causes_isEmpty_iff _).mp remaining]
  rfl

theorem keeps_hoistCleared (slot : Slot) (h : Hoist) (s : State) :
    KeepsAllBut [.hoists, .groups] s (hoistCleared slot h s) := by
  unfold hoistCleared
  split
  · exact keeps_seq (keeps_updateHoist ..) (keeps_withGroup keeps_returnIfQuiet ..)
  · exact keeps_seq (b := []) (keeps_updateHoist ..) (keeps_refl ..)

/-- A view of the state that no hoist or group shows. -/
theorem hoistCleared_same {β : Type} (view : State → β)
    (hoist : ∀ s slot f, view (State.updateHoist s slot f) = view s)
    (group : ∀ s g f, view (State.updateGroup s g f) = view s) (slot : Slot) (h : Hoist)
    (s : State) : view (hoistCleared slot h s) = view s := by
  have returned (g : GroupNo) (s : State) : view (returnIfQuiet g s) = view s := by
    unfold returnIfQuiet
    repeat' split
    · rfl
    · exact group ..
    · rfl
  have cleared : view (causesCleared slot h s) = view s := hoist ..
  unfold hoistCleared withGroup
  repeat' split
  · exact cleared
  · exact cleared
  · exact (returned ..).trans cleared
  · exact cleared

theorem hoist_causesCleared (present : s.hoist slot = some h) (k : Slot) :
    (causesCleared slot h s).hoist k = if k = slot then
      some { h with causes := causesStaying h s } else s.hoist k := by
  rw [causesCleared, hoist_updateHoist, present]
  rfl

theorem hoist_causesCleared_self (present : s.hoist slot = some h) :
    (causesCleared slot h s).hoist slot = some { h with causes := causesStaying h s } := by
  rw [hoist_causesCleared present, if_pos rfl]

theorem hoist_hoistCleared (present : s.hoist slot = some h) (k : Slot) :
    (hoistCleared slot h s).hoist k = if k = slot then
      some { h with causes := causesStaying h s } else s.hoist k := by
  rw [← hoist_causesCleared present]
  unfold hoistCleared
  split
  · have stand := (keeps_withGroup keeps_returnIfQuiet slot (causesCleared slot h s)).same .hoists
      (by decide)
    exact congrArg (fun hoists => hoists[k]) stand
  · rfl

theorem group_causesCleared (g : GroupNo) : (causesCleared slot h s).group g = s.group g :=
  congrArg (fun groups => groups[g]) (updateHoist_groups ..)

/-- A member whose set is empty now counts as faulted no more, and every other one as before. -/
theorem faulted_causesCleared (present : s.hoist slot = some h)
    (emptied : causesStaying h s = .empty) (m : Slot) :
    (causesCleared slot h s).faulted m = false ↔ m = slot ∨ s.faulted m = false := by
  rw [State.faulted, hoist_causesCleared present]
  by_cases e : m = slot
  · have cleared : (!(causesStaying h s).isEmpty) = false := by
      rw [(causes_isEmpty_iff _).mpr emptied]; rfl
    rw [if_pos e]
    exact iff_of_true cleared (.inl e)
  · rw [if_neg e]
    exact (or_iff_right e).symm

/-- The statement's return of a group is the model's, once the member's set is empty. -/
theorem quietGroup_eq (present : s.hoist slot = some h)
    (emptied : causesStaying h s = .empty) (r : TrussGroup) :
    (if Quiet (causesCleared slot h s) r then r.returnToIdle else r) = s.quietGroup slot r := by
  simp only [Quiet, faulted_causesCleared present emptied, State.quietGroup]
  rfl

theorem group_hoistCleared_emptied (present : s.hoist slot = some h)
    (emptied : causesStaying h s = .empty) (g : GroupNo) :
    (hoistCleared slot h s).group g = (s.group g).map fun r =>
      if h.group = some g ∧ h.causes ≠ .empty then s.quietGroup slot r else r := by
  rw [hoistCleared]
  by_cases returns : h.group = some g ∧ h.causes ≠ .empty
  · obtain ⟨member, had⟩ := returns
    rw [if_pos ⟨emptied, had⟩, withGroup_eq (hoist_causesCleared_self present) member,
      group_returnIfQuiet_self, group_causesCleared]
    exact congrArg (fun f => (s.group g).map f) (funext fun r =>
      (quietGroup_eq present emptied r).trans (if_pos ⟨member, had⟩).symm)
  · have stands : (s.group g).map (fun r =>
        if h.group = some g ∧ h.causes ≠ .empty then s.quietGroup slot r else r) = s.group g := by
      simp only [if_neg returns, Option.map_id']
    rw [stands]
    split
    · rename_i both
      cases member : h.group with
      | none =>
        rw [withGroup_of_ungrouped (hoist_causesCleared_self present) member]
        exact group_causesCleared g
      | some own =>
        have other : g ≠ own := fun e => returns ⟨e ▸ member, both.2⟩
        rw [withGroup_eq (hoist_causesCleared_self present) member,
          group_returnIfQuiet_other _ other]
        exact group_causesCleared g
    · exact group_causesCleared g

theorem group_hoistCleared_remaining
    (remaining : causesStaying h s ≠ .empty) (g : GroupNo) :
    (hoistCleared slot h s).group g = s.group g := by
  rw [hoistCleared, if_neg fun both => remaining both.1]
  exact group_causesCleared g

end

/-! ### An accepted CLEAR_FAULT as a request (R144, R166) -/

section
variable {s : State} {slot : Slot} {h : Hoist} {result : ResultCode} {detail : Word}

/-- The answer of a CLEAR_FAULT, with the hoists and the groups as its effect left them and every
other part as it was. -/
theorem cleared_requestWrite (ready : s.requestReady) (present : s.hoist slot = some h)
    (dispatched : dispatch ⟨11, s.port.arguments⟩ (requestInHand 11 s) =
      (hoistCleared slot h (requestInHand 11 s)).answer result detail) :
    Answered 11 result detail s (requestWrite 11 s) ∧
      KeepsAllBut [.hoists, .groups, .requests, .captured] s (requestWrite 11 s) ∧
      (∀ k, (requestWrite 11 s).hoist k =
        if k = slot then some { h with causes := causesStaying h s } else s.hoist k) ∧
      ∀ g, (requestWrite 11 s).group g = (hoistCleared slot h (requestInHand 11 s)).group g := by
  have ended : KeepsAllBut [.requests] (hoistCleared slot h (requestInHand 11 s))
      (requestWrite 11 s) := by
    rw [requestWrite_ready ready, dispatched]
    exact keeps_trans (keeps_answer ..) (keeps_endOfEvent ..)
  refine ⟨answered_of_effect ready dispatched
      (hoistCleared_same State.port updateHoist_port updateGroup_port ..)
      (hoistCleared_same State.requests updateHoist_requests updateGroup_requests ..)
      (hoistCleared_same State.report updateHoist_report updateGroup_report ..)
      (hoistCleared_same State.lines updateHoist_lines updateGroup_lines ..),
    keeps_requestWrite ready dispatched (keeps_hoistCleared ..), fun k => ?_,
    fun g => congrArg (fun groups => groups[g]) (ended.same .groups (by decide))⟩
  have hoist : (requestWrite 11 s).hoist k = (hoistCleared slot h (requestInHand 11 s)).hoist k :=
    congrArg (fun hoists => hoists[k]) (ended.same .hoists (by decide))
  exact hoist.trans (hoist_hoistCleared (s := requestInHand 11 s) present k)

/-- A CLEAR_FAULT that reaches a present hoist (R144). -/
theorem hoistCleared_requestWrite (ready : s.requestReady) (present : s.hoist slot = some h)
    (dispatched : dispatch ⟨11, s.port.arguments⟩ (requestInHand 11 s) =
      clearHoist slot (requestInHand 11 s)) : HoistCleared slot s (requestWrite 11 s) := by
  have inHand : (requestInHand 11 s).hoist slot = some h := present
  by_cases emptied : causesStaying h s = .empty
  · obtain ⟨answered, kept, hoists, groups⟩ := cleared_requestWrite ready present
      (dispatched.trans (clearHoist_emptied inHand emptied))
    refine ⟨h, causesStaying h s, present, hoists, has_causesLeft h _, kept, ?_⟩
    rw [if_pos emptied]
    exact ⟨answered, fun g => (groups g).trans (group_hoistCleared_emptied inHand emptied g)⟩
  · obtain ⟨answered, kept, hoists, groups⟩ := cleared_requestWrite ready present
      (dispatched.trans (clearHoist_remaining inHand emptied))
    refine ⟨h, causesStaying h s, present, hoists, has_causesLeft h _, kept, ?_⟩
    rw [if_neg emptied]
    exact ⟨answered, fun g => (groups g).trans
      (group_hoistCleared_remaining (s := requestInHand 11 s) emptied g)⟩

end

/-! ### The tests of a CLEAR_FAULT for a hoist, in their order (R143) -/

theorem subjectKind_hoist_iff {kind : Word} : subjectKind kind = some .hoist ↔ kind = 1 := by
  refine ⟨fun h => ?_, fun e => by subst e; rfl⟩
  unfold subjectKind at h
  split at h
  · rename_i e; exact BitVec.eq_of_toNat_eq e
  all_goals cases h

theorem subjectKind_group_iff {kind : Word} : subjectKind kind = some .group ↔ kind = 2 := by
  refine ⟨fun h => ?_, fun e => by subst e; rfl⟩
  unfold subjectKind at h
  split at h
  · cases h
  · rename_i e; exact BitVec.eq_of_toNat_eq e
  all_goals cases h

theorem installed_iff (g : GateMode) : g.installed = true ↔ g = .guard ∨ g = .bypass := by
  cases g <;> decide

theorem not_uninstalled {g : GateMode} (configured : g = .guard ∨ g = .bypass) :
    ¬(!g.installed) = true := by
  rw [(installed_iff g).mpr configured]; decide

theorem present_of_hoistNamed {s : State} {number : Word} {slot : Slot}
    (named : s.hoistNamed number = some slot) : ∃ h, s.hoist slot = some h := by
  unfold State.hoistNamed at named
  split at named
  · split at named
    · rename_i present
      obtain rfl := Option.some.inj named
      exact Option.isSome_iff_exists.mp present
    · cases named
  · cases named

section
variable {r : Request} {s : State}

theorem clearFaultRequest_not_group (other : r.arguments[0] ≠ 2) :
    clearFaultRequest r s = clearFaultHoistRequest r s :=
  if_neg (mt subjectKind_group_iff.mp other)

theorem clearFaultHoistRequest_other_kind (other : r.arguments[0] ≠ 1) :
    clearFaultHoistRequest r s = s.answer .badArgument 0 :=
  if_pos (mt subjectKind_hoist_iff.mp other)

theorem clearFaultHoistRequest_unconfigured (kind : r.arguments[0] = 1)
    (outside : ¬(s.loader.gate = .guard ∨ s.loader.gate = .bypass)) :
    clearFaultHoistRequest r s = s.answer .refusedMode 0 := by
  have uninstalled : s.loader.gate.installed = false := by
    rwa [← installed_iff, Bool.not_eq_true] at outside
  rw [clearFaultHoistRequest, if_neg (not_not_intro (subjectKind_hoist_iff.mpr kind)),
    if_pos (by rw [uninstalled]; rfl)]

section
variable (kind : r.arguments[0] = 1)
  (configured : s.loader.gate = .guard ∨ s.loader.gate = .bypass)
include kind configured

theorem clearFaultHoistRequest_unnamed (unnamed : s.hoistNamed r.arguments[1] = none) :
    clearFaultHoistRequest r s = s.answer .badArgument 0 := by
  rw [clearFaultHoistRequest, if_neg (not_not_intro (subjectKind_hoist_iff.mpr kind)),
    if_neg (not_uninstalled configured), unnamed]

theorem clearFaultHoistRequest_named {slot : Slot}
    (named : s.hoistNamed r.arguments[1] = some slot) :
    clearFaultHoistRequest r s = clearHoist slot s := by
  rw [clearFaultHoistRequest, if_neg (not_not_intro (subjectKind_hoist_iff.mpr kind)),
    if_neg (not_uninstalled configured), named]

end
end

/-- Settles O22, by the tests of the request in their order; an accepted one by whether a cause
stays. -/
theorem clearFaultHoistClears : Obligations.ClearFaultHoistClears := by
  intro s ready notGroup
  have dispatched : dispatch ⟨11, s.port.arguments⟩ (requestInHand 11 s) =
      clearFaultHoistRequest ⟨11, s.port.arguments⟩ (requestInHand 11 s) :=
    clearFaultRequest_not_group notGroup
  refine ⟨requestWrite 11 s, rfl, fun other => ?_, fun kind outside => ?_,
    fun kind configured nothing => ?_, fun slot kind configured subject => ?_⟩
  · exact refused_requestWrite ready (dispatched.trans (clearFaultHoistRequest_other_kind other))
  · exact refused_requestWrite ready
      (dispatched.trans (clearFaultHoistRequest_unconfigured kind outside))
  · have unnamed : s.hoistNamed s.port.arguments[1] = none := by
      rwa [subjectOf_hoist, Option.map_eq_none_iff] at nothing
    exact refused_requestWrite ready
      (dispatched.trans (clearFaultHoistRequest_unnamed kind configured unnamed))
  · have named : s.hoistNamed s.port.arguments[1] = some slot := by
      rw [subjectOf_hoist] at subject
      obtain ⟨_, named, ⟨⟩⟩ := Option.map_eq_some_iff.mp subject
      exact named
    obtain ⟨h, present⟩ := present_of_hoistNamed named
    have cleared := clearFaultHoistRequest_named (r := ⟨11, s.port.arguments⟩)
      (s := requestInHand 11 s) kind configured named
    exact hoistCleared_requestWrite ready present (dispatched.trans cleared)

end Sys2Proof.Proofs
end

section
/-! SUPPORT. RESUME (09 R157, R158): the sync of every synced hoist with its SYNC batch, composed at
once or owed (07 R122), what clearing the halt comes to by the gate, and the order of the tests. -/

namespace Sys2Proof.Proofs

open Sys2Proof.Machine Sys2Proof.Laws

/-! ### The sync of every synced hoist (R47) -/

/-- Hoists changed one after the other are all that changes. -/
theorem updateHoists_eq (f : Hoist → Hoist) (slots : List Slot) (s : State) :
    ∃ hoists, forEach (fun slot => (State.updateHoist · slot f)) slots s =
      { s with hoists := hoists } := by
  induction slots generalizing s with
  | nil => exact ⟨s.hoists, rfl⟩
  | cons slot slots ih =>
    obtain ⟨hoists, rest⟩ := ih (s.updateHoist slot f)
    refine ⟨hoists, rest.trans ?_⟩
    unfold State.updateHoist
    cases s.hoist slot <;> rfl

theorem mem_syncedSlots {s : State} {slot : Slot} {h : Hoist} (present : s.hoist slot = some h) :
    slot ∈ s.syncedSlots ↔ h.synced = true := by
  simp [State.syncedSlots, State.syncedAt, present]

theorem present_of_mem_syncedSlots {s : State} {slot : Slot} (listed : slot ∈ s.syncedSlots) :
    ∃ h, s.hoist slot = some h := by
  cases present : s.hoist slot with
  | none => simp [State.syncedSlots, State.syncedAt, present] at listed
  | some h => exact ⟨h, rfl⟩

theorem nodup_syncedSlots (s : State) : s.syncedSlots.Nodup := (List.nodup_finRange 128).filter _

theorem syncedSlots_of_hoistsBecome {f : Slot → Hoist → Hoist} {s t : State}
    (h : HoistsBecome f s t) (synced : ∀ slot x, (f slot x).synced = x.synced) :
    t.syncedSlots = s.syncedSlots := by
  have same : t.syncedAt = s.syncedAt := by
    funext slot
    rw [State.syncedAt, h slot, State.syncedAt]
    cases s.hoist slot with
    | none => rfl
    | some x => exact synced slot x
  rw [State.syncedSlots, same, State.syncedSlots]

/-- A change of each synced hoist. -/
def onSynced (f : Hoist → Hoist) (h : Hoist) : Hoist := if h.synced then f h else h

theorem hoistsBecome_onSynced (f : Hoist → Hoist) (s : State) :
    HoistsBecome (fun _ => onSynced f) s
      (forEach (fun slot => (State.updateHoist · slot f)) s.syncedSlots s) := by
  intro slot
  rw [hoistsBecome_updateHoists f (nodup_syncedSlots s) s slot]
  cases present : s.hoist slot with
  | none => rfl
  | some h => simp only [Option.map_some, mem_syncedSlots present, onSynced]

/-- The rig with the measured position of every synced hoist taken as its commanded one (R47). -/
def resituated (s : State) : State :=
  forEach (fun slot => (State.updateHoist · slot Hoist.syncTo)) s.syncedSlots s

theorem hoistsBecome_resituated (s : State) :
    HoistsBecome (fun _ => onSynced Hoist.syncTo) s (resituated s) := hoistsBecome_onSynced _ s

theorem syncedSlots_resituated (s : State) : (resituated s).syncedSlots = s.syncedSlots :=
  syncedSlots_of_hoistsBecome (hoistsBecome_resituated s) fun _ x => by
    unfold onSynced; split <;> rfl

theorem noRunDemand_resituated {s : State} (still : NoRunDemand s) : NoRunDemand (resituated s) :=
  noRunDemand_of_hoistsBecome (hoistsBecome_resituated s) fun slot x present => by
    unfold onSynced; split <;> exact still slot x present

/-! ### Its SYNC batch (R122) -/

/-- The rig with a SYNC record composed for every synced hoist (R48). -/
def syncComposed (s : State) : State :=
  forEach (fun slot => (State.updateHoist · slot recorded)) s.syncedSlots (resituated s)

/-- The records of the SYNC batch, as they are composed. -/
def syncRecords (s : State) : List SetpointRecord :=
  s.syncedSlots.filterMap fun slot => ((resituated s).hoist slot).map (recordOf .sync slot)

theorem composeRecords_resituated {s : State} (still : NoRunDemand s) :
    composeRecords .sync s.syncedSlots (resituated s) = (syncRecords s, syncComposed s) :=
  composeRecords_of_noRunDemand (noRunDemand_resituated still) _ (nodup_syncedSlots s)

theorem syncRecords_ne_nil {s : State} (anySynced : s.syncedSlots ≠ []) : syncRecords s ≠ [] := by
  obtain ⟨slot, slots, e⟩ := List.exists_cons_of_ne_nil anySynced
  have listed : slot ∈ s.syncedSlots := by simp [e]
  obtain ⟨h, present⟩ := present_of_mem_syncedSlots listed
  refine fun empty => absurd (List.filterMap_eq_nil_iff.mp empty slot listed) ?_
  simp [hoistsBecome_resituated s slot, present]

theorem hoistsBecome_syncComposed (s : State) :
    HoistsBecome (fun _ h => h.syncedNow true) s (syncComposed s) := by
  have becomes := hoistsBecome_onSynced recorded (resituated s)
  rw [syncedSlots_resituated] at becomes
  intro slot
  rw [syncComposed, hoistsBecome_trans (hoistsBecome_resituated s) becomes slot]
  congr 1
  funext h
  by_cases synced : h.synced = true
  · simp [onSynced, Hoist.syncedNow, synced, recorded, Hoist.syncTo]
  · simp [onSynced, Hoist.syncedNow, synced]

/-- The records of the SYNC batch, told by the hoists as they were composed (R125). -/
theorem syncRecords_eq {s t : State} (hoists : HoistsBecome (fun _ h => h.syncedNow true) s t) :
    syncRecords s = s.syncedSlots.filterMap fun slot =>
      (t.hoist slot).map fun h => ⟨slot, h.commanded, h.command, .sync, 0⟩ := by
  refine filterMap_eq_of_forall_mem fun slot listed => ?_
  obtain ⟨h, present⟩ := present_of_mem_syncedSlots listed
  have synced := (mem_syncedSlots present).mp listed
  rw [hoistsBecome_resituated s slot, hoists slot, present]
  simp [onSynced, synced, Hoist.syncedNow, Hoist.syncTo, recordOf]

theorem syncAll_unsynced {s : State} (unsynced : s.syncedSlots = []) : syncAll s = s := by
  simp only [syncAll, unsynced, forEach, syncOwed, if_true]

/-- A Release Writer with a whole batch newly in hand (R124). -/
def startedWith (b : Batch) (w : ReleaseWriter) : ReleaseWriter :=
  { w with state := .starting, hand := some b.inHand }

/-- A Release Writer that owes one more SYNC batch (R122). -/
def owingSync (slots : List Slot) (w : ReleaseWriter) : ReleaseWriter :=
  { w with owed := w.owed ++ [.sync slots] }

theorem resituated_eq (s : State) : ∃ hoists, resituated s = { s with hoists := hoists } :=
  updateHoists_eq ..

theorem syncComposed_eq (s : State) : ∃ hoists, syncComposed s = { s with hoists := hoists } := by
  obtain ⟨_, before⟩ := resituated_eq s
  obtain ⟨hoists, after⟩ := updateHoists_eq recorded s.syncedSlots (resituated s)
  exact ⟨hoists, by rw [syncComposed, after, before]⟩

section
variable {s : State} (anySynced : s.syncedSlots ≠ [])
include anySynced

theorem syncAll_idle (still : NoRunDemand s) (idle : s.writer.state = .idle) :
    syncAll s = { syncComposed s with
      pacer := { s.pacer with batchNumber := s.pacer.batchNumber + 1 }
      writer := startedWith ⟨s.pacer.batchNumber + 1, syncRecords s⟩ s.writer } := by
  have composed := composeRecords_resituated still
  obtain ⟨r, rs, records⟩ := List.exists_cons_of_ne_nil (syncRecords_ne_nil anySynced)
  obtain ⟨_, placed⟩ := resituated_eq s
  have writer : (resituated s).writer.state = .idle := by rw [placed]; exact idle
  have owed : syncAll s = startBatch .sync s.syncedSlots (resituated s) := by
    rw [syncAll, syncOwed, if_neg anySynced, ← resituated, writer]
  obtain ⟨_, after⟩ := syncComposed_eq s
  rw [owed, startBatch, composed, records, after]
  rfl

theorem syncAll_busy (busy : s.writer.state ≠ .idle) :
    syncAll s = { resituated s with writer := owingSync s.syncedSlots s.writer } := by
  obtain ⟨_, placed⟩ := resituated_eq s
  have writer : (resituated s).writer = s.writer := by rw [placed]
  rw [syncAll, syncOwed, if_neg anySynced, ← resituated, writer]
  cases state : s.writer.state with
  | idle => exact absurd state busy
  | starting => rfl
  | writing => rfl

end

section
variable {s : State} (still : NoRunDemand s)
include still

theorem hoistsBecome_syncAll :
    HoistsBecome (fun _ h => h.syncedNow (decide (s.writer.state = .idle))) s (syncAll s) := by
  by_cases unsynced : s.syncedSlots = []
  · intro slot
    rw [syncAll_unsynced unsynced]
    cases present : s.hoist slot with
    | none => rfl
    | some h =>
      have never : ¬h.synced = true := by rw [← mem_syncedSlots present, unsynced]; simp
      simp [Hoist.syncedNow, never]
  · by_cases idle : s.writer.state = .idle
    · rw [syncAll_idle unsynced still idle, decide_eq_true idle]
      exact hoistsBecome_syncComposed s
    · rw [syncAll_busy unsynced idle, decide_eq_false idle]
      intro slot
      refine (hoistsBecome_resituated s slot).trans ?_
      congr 1

/-- The sync changes the hoists, the batch number and the Release Writer, and nothing else. -/
theorem syncAll_eq : ∃ hoists number writer, syncAll s =
    { s with
      hoists := hoists
      pacer := { s.pacer with batchNumber := number }
      writer := writer } := by
  by_cases unsynced : s.syncedSlots = []
  · exact ⟨_, _, _, syncAll_unsynced unsynced⟩
  · by_cases idle : s.writer.state = .idle
    · obtain ⟨hoists, composed⟩ := syncComposed_eq s
      exact ⟨hoists, _, _, by rw [syncAll_idle unsynced still idle, composed]⟩
    · obtain ⟨hoists, placed⟩ := resituated_eq s
      exact ⟨hoists, _, _, by rw [syncAll_busy unsynced idle, placed]⟩

/-- The SYNC batch, seen in a state whose hoists, Pacer and batches are as the sync left them. -/
theorem syncBatch_of_syncAll {t : State} (hoists : samePart (syncAll s) t .hoists)
    (pacer : samePart (syncAll s) t .pacer) (batches : samePart (syncAll s) t .batches)
    (busy : (syncAll s).writer.state ≠ .idle → t.writer.state ≠ .idle) : SyncBatch s t := by
  have becomes := hoistsBecome_congr (hoistsBecome_syncAll still) hoists
  simp only [samePart] at pacer
  unfold SyncBatch
  by_cases unsynced : s.syncedSlots = []
  · rw [syncAll_unsynced unsynced] at pacer batches
    rw [if_pos unsynced]
    exact ⟨by rw [pacer], batches⟩
  · rw [if_neg unsynced]
    by_cases idle : s.writer.state = .idle
    · rw [decide_eq_true idle] at becomes
      rw [syncAll_idle unsynced still idle] at pacer batches busy
      obtain ⟨owed, following, content⟩ := batches
      rw [idle]
      exact ⟨by rw [pacer], busy (by simp [startedWith]),
        by rw [content, ← syncRecords_eq becomes]; rfl, owed, following⟩
    · obtain ⟨_, placed⟩ := resituated_eq s
      rw [syncAll_busy unsynced idle, placed] at pacer batches
      obtain ⟨owed, following, content⟩ := batches
      have owes : BatchOwed (.sync s.syncedSlots) s t := ⟨by rw [pacer], owed, following, content⟩
      cases state : s.writer.state with
      | idle => exact absurd state idle
      | starting => exact owes
      | writing => exact owes

end

/-! ### The halt cleared (R158) -/

theorem keeps_clearHalt (s : State) : KeepsAllBut [.halt] s (clearHalt s) := keeps_halt ..

/-- ENABLE shows at once that nothing of the halt stands any more (R155). -/
theorem enable_of_cleared {s t : State} (lines : LinesShow t) (loader : t.loader = s.loader)
    (configured : s.loader.gate = .guard ∨ s.loader.gate = .bypass)
    (closed : s.halt.channelA = .closed ∧ s.halt.channelB = .closed)
    (halt : t.halt = (clearHalt s).halt) : t.lines.enable = true := by
  rw [lines.1, State.enabled, loader, (installed_iff _).mpr configured, halt]
  simp [clearHalt, closed]

section
variable {s : State} (ready : s.requestReady)
  (closed : s.halt.channelA = .closed ∧ s.halt.channelB = .closed)
include ready closed

theorem rigResumed_bypass (gate : s.loader.gate = .bypass)
    (dispatched : dispatch ⟨12, s.port.arguments⟩ (requestInHand 12 s) =
      (clearHalt (requestInHand 12 s)).answer .done 0) : RigResumed s (requestWrite 12 s) := by
  have ended : KeepsAllBut [.requests] (clearHalt (requestInHand 12 s)) (requestWrite 12 s) := by
    rw [requestWrite_ready ready, dispatched]
    exact keeps_trans (keeps_answer ..) (keeps_endOfEvent ..)
  have halt : (requestWrite 12 s).halt = (clearHalt s).halt := ended.same .halt (by decide)
  have lines : LinesShow (requestWrite 12 s) := linesShow_endOfEvent ..
  exact {
    halt
    enable := enable_of_cleared lines (ended.same .loader (by decide)) (.inr gate) closed halt
    inGuard := fun guarded => by rw [gate] at guarded; cases guarded
    inBypass := fun _ => ⟨answered_of_effect ready dispatched rfl rfl rfl rfl,
      keeps_requestWrite ready dispatched (keeps_clearHalt _)⟩ }

theorem rigResumed_guard (gate : s.loader.gate = .guard) (still : NoRunDemand s)
    (dispatched : dispatch ⟨12, s.port.arguments⟩ (requestInHand 12 s) =
      (syncAll (clearHalt (requestInHand 12 s))).answer .done
        (BitVec.ofNat 32 s.syncedSlots.length)) : RigResumed s (requestWrite 12 s) := by
  have stillCleared : NoRunDemand (clearHalt (requestInHand 12 s)) := still
  obtain ⟨hoists, number, writer, synced⟩ := syncAll_eq stillCleared
  have ended : KeepsAllBut [.requests] (syncAll (clearHalt (requestInHand 12 s)))
      (requestWrite 12 s) := by
    rw [requestWrite_ready ready, dispatched]
    exact keeps_trans (keeps_answer ..) (keeps_endOfEvent ..)
  have busy : (syncAll (clearHalt (requestInHand 12 s))).writer.state ≠ .idle →
      (requestWrite 12 s).writer.state ≠ .idle := fun busy => by
    rw [requestWrite_ready ready, dispatched]
    exact busy_endOfEvent _ busy
  have become := hoistsBecome_congr (hoistsBecome_syncAll stillCleared)
    (ended.same .hoists (by decide))
  have batch : SyncBatch s (requestWrite 12 s) := syncBatch_of_syncAll stillCleared
    (ended.same .hoists (by decide)) (ended.same .pacer (by decide))
    (ended.same .batches (by decide)) busy
  have lines : LinesShow (requestWrite 12 s) := linesShow_endOfEvent ..
  have kept := keeps_requestWrite ready dispatched
    (keeps_seq (c := [.halt, .hoists, .pacer, .batches]) (keeps_clearHalt _) (keeps_syncAll _))
  rw [synced] at ended dispatched
  have halt : (requestWrite 12 s).halt = (clearHalt s).halt := ended.same .halt (by decide)
  have pacer : (requestWrite 12 s).pacer = { s.pacer with batchNumber := number } :=
    ended.same .pacer (by decide)
  exact {
    halt
    enable := enable_of_cleared lines (ended.same .loader (by decide)) (.inl gate) closed halt
    inGuard := fun _ => ⟨answered_of_effect ready dispatched rfl rfl rfl rfl, become, batch,
      fun q => by rw [State.queue, pacer, State.queue], by
        simp only [PacerSettingsStand, pacer, and_self], kept⟩
    inBypass := fun bypass => by rw [gate] at bypass; cases bypass }

end

/-! ### The tests of a RESUME, in their order (R157) -/

/-- A hoist that keeps a halt of OVERLOAD_BYPASS latched, told by its own causes (R157). -/
theorem overloadObstacle_eq (s : State) : s.overloadObstacle = allSlots.find? fun slot =>
    s.halt.causes.overloadBypass && (s.hoist slot).any fun h => h.causes.overload := by
  have overloaded (slot : Slot) :
      s.overloaded slot = (s.hoist slot).any fun h => h.causes.overload := by
    rw [State.overloaded]
    cases s.hoist slot <;> rfl
  unfold State.overloadObstacle
  cases s.halt.causes.overloadBypass with
  | false => exact (List.find?_eq_none.mpr fun _ _ => by simp).symm
  | true => simp [← overloaded]

section
variable {r : Request} {s : State}

theorem resumeRequest_unconfigured
    (outside : ¬(s.loader.gate = .guard ∨ s.loader.gate = .bypass)) :
    resumeRequest r s = s.answer .refusedMode 0 := by
  rw [← installed_iff, Bool.not_eq_true] at outside
  simp [resumeRequest, outside]

variable (configured : s.loader.gate = .guard ∨ s.loader.gate = .bypass)
include configured

theorem resumeRequest_clear (clear : s.halt.latched = false) :
    resumeRequest r s = s.answer .done 0 := by
  simp [resumeRequest, (installed_iff _).mpr configured, clear]

variable (latched : s.halt.latched = true)
include latched

theorem resumeRequest_open (opened : ¬(s.halt.channelA = .closed ∧ s.halt.channelB = .closed)) :
    resumeRequest r s = s.answer .refusedHalt 1 := by
  have either : s.halt.channelA = .opened ∨ s.halt.channelB = .opened := by
    cases a : s.halt.channelA with
    | opened => exact .inl rfl
    | closed =>
      cases b : s.halt.channelB with
      | opened => exact .inr rfl
      | closed => exact absurd ⟨a, b⟩ opened
  simp [resumeRequest, (installed_iff _).mpr configured, latched, either]

variable (closed : s.halt.channelA = .closed ∧ s.halt.channelB = .closed)
include closed

theorem resumeRequest_cycle (required : s.halt.cycle ≠ .notRequired) :
    resumeRequest r s = s.answer .refusedHalt 2 := by
  simp [resumeRequest, (installed_iff _).mpr configured, latched, closed, required]

variable (cycled : s.halt.cycle = .notRequired)
include cycled

theorem resumeRequest_overloaded {slot : Slot} (heavy : s.overloadObstacle = some slot) :
    resumeRequest r s = s.answer .refusedFault (BitVec.ofNat 32 slot.val) := by
  simp [resumeRequest, (installed_iff _).mpr configured, latched, closed, cycled, heavy]

theorem resumeRequest_accepted (light : s.overloadObstacle = none) :
    resumeRequest r s = resumeRig s := by
  simp [resumeRequest, (installed_iff _).mpr configured, latched, closed, cycled, light]

end

/-- Settles O24, by the tests of a RESUME in their order; an accepted one by the gate. -/
theorem resumeClearsTheHalt : Obligations.ResumeClearsTheHalt := by
  intro s ready stopped
  have dispatched : dispatch ⟨12, s.port.arguments⟩ (requestInHand 12 s) =
      resumeRequest ⟨12, s.port.arguments⟩ (requestInHand 12 s) := rfl
  have obstacle := overloadObstacle_eq (requestInHand 12 s)
  refine ⟨requestWrite 12 s, rfl,
    fun outside => refused_requestWrite ready
      (dispatched.trans (resumeRequest_unconfigured outside)),
    fun configured clear => refused_requestWrite ready
      (dispatched.trans (resumeRequest_clear configured clear)),
    fun configured latched opened => refused_requestWrite ready
      (dispatched.trans (resumeRequest_open configured latched opened)),
    fun configured latched closed required => refused_requestWrite ready
      (dispatched.trans (resumeRequest_cycle configured latched closed required)),
    fun slot configured latched closed cycled heavy => refused_requestWrite ready
      (dispatched.trans (resumeRequest_overloaded (s := requestInHand 12 s) configured latched
        closed cycled (obstacle.trans heavy))),
    fun configured latched closed cycled light => ?_⟩
  have accepted := dispatched.trans (resumeRequest_accepted (s := requestInHand 12 s) configured
    latched closed cycled (obstacle.trans light))
  rcases configured with guarded | bypassed
  · have still : NoRunDemand s := fun slot h present =>
      ((stopped (.inr ⟨guarded, latched⟩)).2 slot h present).2
    exact rigResumed_guard ready closed guarded still (accepted.trans (if_pos guarded))
  · have outside : s.loader.gate ≠ .guard := by rw [bypassed]; decide
    exact rigResumed_bypass ready closed bypassed (accepted.trans (if_neg outside))

end Sys2Proof.Proofs
end

section
/-! SUPPORT. UNLOCK and LOCK (10 R162, R163): what the captured key words are compared with, the
rows of the two tables, and a request event that meets a PENDING request (11 R167). -/

namespace Sys2Proof.Proofs

open Sys2Proof.Machine Sys2Proof.Laws

/-! ### A request event that meets a request in hand (R167) -/

/-- The state in which a written request code meets the Request Handler: the write waits for the
memory port and its code is captured. -/
def requestCaptured (code : Word) (s : State) : State :=
  let waiting := enterWaiting (requestAccess code) false s
  { waiting with port := { waiting.port with requestCode := code } }

theorem keeps_requestCaptured (code : Word) (s : State) :
    KeepsAllBut [.captured] s (requestCaptured code s) := by
  refine ⟨fun p unnamed => ?_⟩
  cases p <;> simp_all [samePart, requestCaptured, enterWaiting]

/-- A request code that is taken from the bus makes a request event, whatever the request state. -/
theorem requestWrite_accepted {s : State} (accepted : s.accepts .processor = true) (code : Word) :
    requestWrite code s = endOfEvent s (requestEvent (requestCaptured code s)) := by
  have processor : (requestAccess code).mid = .processor := rfl
  have payload : accessPayload (requestAccess code).op = some (code, allBytes) := rfl
  simp only [requestWrite, event, offerAccess, processor, accepted, if_true, takeAccess,
    classify_requestAccess, carryOut, payload, consume, captureRequestCode, mergeBytes_allBytes]
  rfl

theorem request_isSome_iff (x : RequestState) : x.request.isSome ↔ x ≠ .idle := by
  cases x <;> simp [RequestState.request]

/-- An overrun raises its notice and does nothing else. -/
theorem requestEvent_overrun {s : State} (pending : s.requests.state ≠ .idle) :
    ∃ inHand : Request, requestEvent s =
      s.notice .requestOverrun none s.port.requestCode inHand.code := by
  obtain ⟨inHand, found⟩ := Option.isSome_iff_exists.mp ((request_isSome_iff _).mpr pending)
  exact ⟨inHand, by rw [requestEvent, found]⟩

theorem keeps_requestEvent_overrun {s : State} (pending : s.requests.state ≠ .idle) :
    KeepsAllBut [.faultQueue] s (requestEvent s) := by
  obtain ⟨inHand, overrun⟩ := requestEvent_overrun pending
  rw [overrun]
  exact keeps_notice ..

theorem keeps_requestWrite_overrun {s : State} (accepted : s.accepts .processor = true)
    (pending : s.requests.state ≠ .idle) (code : Word) :
    KeepsAllBut [.captured, .faultQueue, .requests] s (requestWrite code s) := by
  have stillPending : (requestCaptured code s).requests.state ≠ .idle := pending
  rw [requestWrite_accepted accepted]
  exact keeps_seq (keeps_requestCaptured code s)
    (keeps_seq (c := [.faultQueue, .requests])
      (keeps_requestEvent_overrun stillPending) (keeps_endOfEvent ..))

/-! ### A request that is answered with a lock of its own -/

/-- The lock after an answered request is the one its owner set. -/
theorem lock_requestWrite {s m : State} {code detail : Word} {result : ResultCode}
    (ready : s.requestReady)
    (dispatched : dispatch ⟨code, s.port.arguments⟩ (requestInHand code s) =
      m.answer result detail) : (requestWrite code s).lock = m.lock := by
  rw [requestWrite_ready ready, dispatched]
  exact (keeps_endOfEvent s (m.answer result detail)).same .lock (by decide)

/-- A request that sets the lock and is answered changes the lock alone beside the request. -/
theorem lockSet_requestWrite {s : State} {l : RigLock} {code detail : Word} {result : ResultCode}
    (ready : s.requestReady)
    (dispatched : dispatch ⟨code, s.port.arguments⟩ (requestInHand code s) =
      State.answer { requestInHand code s with lock := l } result detail) :
    Answered code result detail s (requestWrite code s) ∧ (requestWrite code s).lock = l ∧
      KeepsAllBut [.lock, .requests, .captured] s (requestWrite code s) :=
  ⟨answered_of_effect ready dispatched rfl rfl rfl rfl, lock_requestWrite ready dispatched,
    keeps_requestWrite ready dispatched (keeps_lock ..)⟩

/-! ### UNLOCK (R162) -/

theorem keyFits_iff (s : State) : s.lock.keyFits = true ↔ KeyMatches s := by
  rw [RigLock.keyFits, decide_eq_true_iff]
  constructor
  · intro same
    exact ⟨s.lock.keys, same, fun _ => rfl⟩
  · rintro ⟨password, installed, same⟩
    rw [installed, Option.some_inj]
    exact Vector.ext fun n inside => (same ⟨n, inside⟩).symm

/-- An UNLOCK compares the key words where a password is installed that a key can meet. -/
def ComparesKey (x : LockState) : Prop := x = .closed ∨ x = .opened

section
variable {r : Request} {s : State}

theorem unlockRequest_noPassword (state : s.lock.state = .noPassword) :
    unlockRequest r s = (setLock .noPassword s).answer .refusedLock 0 := by
  simp only [unlockRequest, state]

theorem unlockRequest_permanent (state : s.lock.state = .permanent) :
    unlockRequest r s = (setLock .permanent s).answer .refusedLock 0 := by
  simp only [unlockRequest, state]

theorem unlockRequest_fits (compared : ComparesKey s.lock.state) (fits : KeyMatches s) :
    unlockRequest r s = (setLock .opened s).answer .done 0 := by
  rcases compared with state | state <;>
    simp only [unlockRequest, state, (keyFits_iff s).mpr fits, if_true]

theorem unlockRequest_misfits (compared : ComparesKey s.lock.state) (misfits : ¬KeyMatches s) :
    unlockRequest r s = (setLock s.lock.state s).answer .keyMismatch 0 := by
  rw [← keyFits_iff] at misfits
  rcases compared with state | state <;> simp only [unlockRequest, state, if_neg misfits]

end

theorem unlockAnswered_requestWrite {s : State} {x : LockState} {result : ResultCode}
    (ready : s.requestReady)
    (dispatched : unlockRequest ⟨4, s.port.arguments⟩ (requestInHand 4 s) =
      (setLock x (requestInHand 4 s)).answer result 0) :
    UnlockAnswered result x s (requestWrite 4 s) :=
  lockSet_requestWrite (code := 4) ready dispatched

/-- Settles O16, by the lock state and the comparison; an overrun leaves the lock by its frame. -/
theorem unlockComparesTheKey : Obligations.UnlockComparesTheKey := by
  intro s
  refine ⟨fun ready => ?_, fun _ accepted pending => ⟨requestWrite 4 s, rfl,
    (keeps_requestWrite_overrun accepted pending 4).same .lock (by decide)⟩⟩
  have opens (compared : ComparesKey s.lock.state) (fits : KeyMatches s) :
      UnlockAnswered .done .opened s (requestWrite 4 s) :=
    unlockAnswered_requestWrite ready (unlockRequest_fits (s := requestInHand 4 s) compared fits)
  have mismatches (compared : ComparesKey s.lock.state) (misfits : ¬KeyMatches s) :
      UnlockAnswered .keyMismatch s.lock.state s (requestWrite 4 s) :=
    unlockAnswered_requestWrite ready
      (unlockRequest_misfits (s := requestInHand 4 s) compared misfits)
  exact ⟨requestWrite 4 s, rfl,
    fun absent => unlockAnswered_requestWrite ready
      (unlockRequest_noPassword (s := requestInHand 4 s) absent),
    fun permanent => unlockAnswered_requestWrite ready
      (unlockRequest_permanent (s := requestInHand 4 s) permanent),
    fun closed => opens (.inl closed),
    fun closed misfits => closed ▸ mismatches (.inl closed) misfits,
    fun opened => opens (.inr opened),
    fun opened misfits => opened ▸ mismatches (.inr opened) misfits⟩

/-! ### LOCK (R163) -/

section
variable {r : Request} {s : State}

theorem lockRequest_opened (state : s.lock.state = .opened) : lockRequest r s =
    State.answer { s with lock := { s.lock with state := .closed } } .done 0 := by
  simp only [lockRequest, state]

theorem lockRequest_closed (state : s.lock.state = .closed) :
    lockRequest r s = s.answer .done 0 := by
  simp only [lockRequest, state]

theorem lockRequest_noPassword (state : s.lock.state = .noPassword) :
    lockRequest r s = s.answer .refusedLock 0 := by
  simp only [lockRequest, state]

theorem lockRequest_permanent (state : s.lock.state = .permanent) :
    lockRequest r s = s.answer .refusedLock 0 := by
  simp only [lockRequest, state]

end

/-- Settles O17, by the lock state: an OPEN lock alone is changed. -/
theorem lockClosesAnOpenLock : Obligations.LockClosesAnOpenLock := by
  intro s ready
  have dispatched : dispatch ⟨5, s.port.arguments⟩ (requestInHand 5 s) =
      lockRequest ⟨5, s.port.arguments⟩ (requestInHand 5 s) := rfl
  exact ⟨requestWrite 5 s, rfl,
    fun opened => lockSet_requestWrite ready
      (dispatched.trans (lockRequest_opened (s := requestInHand 5 s) opened)),
    fun closed => refused_requestWrite ready (dispatched.trans (lockRequest_closed closed)),
    fun absent => refused_requestWrite ready (dispatched.trans (lockRequest_noPassword absent)),
    fun permanent => refused_requestWrite ready
      (dispatched.trans (lockRequest_permanent permanent))⟩

end Sys2Proof.Proofs
end
